-- ==== Sys2Proof/Word.lean ====
section
/-! DEFINITION. The widths and value types of HSC (00_scope.md R5, R8).

Ticks, durations, timeouts and flag sets are 32 bits wide (`TICK_W`, `FLAG_W`) and an opcode 8, so they are bit
vectors. The width `ELEM_W` of an element is a parameter of the block, so an element is held as the number its bits
stand for (R8: "A value of width W is an integer in 0 .. 2^W - 1"); `State.wf` keeps it below `2^ELEM_W` (log 9). -/

namespace Sys2Proof

/-- An opcode byte (30_encoding.md R92). -/
abbrev Byte := BitVec 8

/-- A tick, duration, timeout or flag set: 32 bits (00_scope.md R5). -/
abbrev Word := BitVec 32

/-- One ring element, an opaque word of `ELEM_W` bits read as a number (20_memory.md R60, 00_scope.md R8). -/
abbrev Elem := Nat

end Sys2Proof
end

