-- ==== Sys2Proof/Syntax.lean ====
section
/-! DEFINITION. The eleven operations (30_encoding.md R93), the command signals of a port (R90) and the
pseudo-operations (R103). -/

namespace Sys2Proof

/-- One constructor for each row of spec/opcode_table.json, with the operands its format carries
(30_encoding.md R91, R93, R102). -/
inductive Instr
  | dlNew (duration : Word)
  | dlExpired
  | ntfReset
  | ntfSet (flags : Word)
  | ntfWait (flags timeout : Word)
  | rbPush (value : Elem)
  | rbPop
  | rbPopt (timeout : Word)
  | rbClear
  | rbSize
  | rbCap
  deriving DecidableEq, Repr

/-- The command signals `cmd_op`, `cmd_arg0`, `cmd_arg1`, `cmd_wdata` of one port (30_encoding.md R90). -/
structure Cmd where
  op    : Byte
  arg0  : Word
  arg1  : Word
  wdata : Elem
  deriving DecidableEq, Repr, Inhabited

/-- `DL.NEVER` (30_encoding.md R103). -/
abbrev Instr.dlNever : Instr := .dlNew 0xFFFFFFFF

/-- `NTF.POLL flags` (30_encoding.md R103). -/
abbrev Instr.ntfPoll (flags : Word) : Instr := .ntfWait flags 0

/-- `NTF.WAITF flags` (30_encoding.md R103). -/
abbrev Instr.ntfWaitf (flags : Word) : Instr := .ntfWait flags 0xFFFFFFFF

/-- `RB.POPF` (30_encoding.md R103). -/
abbrev Instr.rbPopf : Instr := .rbPopt 0xFFFFFFFF

end Sys2Proof
end

