-- ==== Sys2Proof/Config.lean ====
section
/-! DEFINITION. What is fixed when the block is built (00_scope.md R5), what may arrive from outside (60_exceptions.md
R237, 70_reset_and_hazards.md R260), and the free values, which have no body. -/

namespace Sys2Proof

/-- The parameters the spec leaves OPEN as arguments of the model (00_scope.md R5). They stand in State, constant, so
that a statement about every state is one about every block (log 1). -/
structure Params where
  elemW    : Nat
  capacity : Nat
  nports   : Nat
  deriving DecidableEq, Repr

namespace Params

/-- `N = CAPACITY + 1` storage slots (00_scope.md R5, 10_state.md R28). -/
def slots (c : Params) : Nat := c.capacity + 1

/-- `DATA_W = max(32, ELEM_W)` (00_scope.md R5). -/
def dataW (c : Params) : Nat := max 32 c.elemW

/-- `IDX_W`, the least `k >= 1` with `2^k >= N` (00_scope.md R5). -/
def idxW (c : Params) : Nat := if c.slots ≤ 2 then 1 else Nat.log2 (c.slots - 1) + 1

end Params

/-- One move of the world, one step each (60_exceptions.md R237): a step of the TickSource, an issue on a port, a
micro-step of a port; and the hardware reset input (70_reset_and_hazards.md R260). `swap` says which of two open
micro-steps a port takes where the spec admits both orders, RB.CLEAR and RB.SIZE (log 4). -/
inductive Input
  | tick
  | rst
  | issue (port : Nat) (cmd : Cmd)
  | micro (port : Nat) (swap : Bool)
  deriving DecidableEq, Repr, Inhabited

namespace Config

/-- `TICK_W` (00_scope.md R5). -/
def tickW : Nat := 32

/-- `FLAG_W` (00_scope.md R5). -/
def flagW : Nat := 32

/-- `SENTINEL_MAX`, the duration that means "never expires" (00_scope.md R5, log 22). -/
def sentinelMax : Word := 0xFFFFFFFF

/-- The parameters of the spec's vectors (95_test_vectors.md, Conventions); `State.reset` uses them (log 1). -/
def vectorParams : Params := ⟨32, 4, 2⟩

/-- FREE VALUE: the `n`-th move where no listed input says which comes next (60_exceptions.md R237, log 2). -/
opaque freeInput : Nat → Input

/-- FREE VALUE: what `DL[p]` holds between a reset and the first DL.NEW on port `p`, by reset generation and port
(40_deadline.md R127, log 7). -/
opaque freeDeadline : Nat → Nat → Word × Bool

/-- FREE VALUE: what a slot nothing has been written to since reset holds, by reset generation and slot
(10_state.md R40, log 8). -/
opaque freeElem : Nat → Nat → Elem

/-- FREE VALUE: the answer where a count does not fit in `DATA_W` bits, by the count (30_encoding.md R96, log 10). -/
opaque freeWide : Nat → Nat

end Config

end Sys2Proof
end

