-- ==== Sys2Proof/WellFormed.lean ====
section
/-! DEFINITION. Which parameters, instructions, commands and inputs are well formed (00_scope.md R5, 30_encoding.md
R90, R91). Every check is a Bool. -/

namespace Sys2Proof

/-- `ELEM_W >= 1`, `CAPACITY >= 1`, `NPORTS >= 1` (00_scope.md R5). -/
def Params.ok (c : Params) : Bool := 1 ≤ c.elemW && 1 ≤ c.capacity && 1 ≤ c.nports

/-- A value of `ELEM_W` bits (00_scope.md R8). -/
def Elem.fits (c : Params) (v : Elem) : Bool := v < 2 ^ c.elemW

/-- An instruction is well formed when its element operand has `ELEM_W` bits; every other operand is a whole 32-bit
signal (30_encoding.md R97). -/
def Instr.wf (c : Params) : Instr → Bool
  | .rbPush v => Elem.fits c v
  | .dlNew _ | .dlExpired | .ntfReset | .ntfSet _ | .ntfWait _ _ | .rbPop | .rbPopt _ | .rbClear | .rbSize
  | .rbCap => true

/-- The element signal of a command has `ELEM_W` bits (30_encoding.md R90). -/
def Cmd.wf (c : Params) (m : Cmd) : Bool := Elem.fits c m.wdata

/-- An input names a port the block has, `0 .. NPORTS-1` (30_encoding.md R90). -/
def Input.wf (c : Params) : Input → Bool
  | .tick | .rst => true
  | .issue p _ => p < c.nports
  | .micro p _ => p < c.nports

end Sys2Proof
end

