-- ==== Sys2Proof/Decode.lean ====
section
/-! DEFINITION. The opcode map (30_encoding.md R91 to R94), the decoder, total on every command and refusing reserved
opcodes by name, the encoder, the canonical command word `CW` (R91), the listing form (R102), and the table's own
numbering of an instruction's bits. -/

namespace Sys2Proof

/-- The eleven operations without their operands (30_encoding.md R93). -/
inductive Opc
  | dlNew | dlExpired
  | ntfReset | ntfSet | ntfWait
  | rbPush | rbPop | rbPopt | rbClear | rbSize | rbCap
  deriving DecidableEq, Repr

/-- The four command formats (30_encoding.md R91). -/
inductive Format
  | Z | A | B | V
  deriving DecidableEq, Repr

/-- One row of the opcode map (30_encoding.md R93). -/
structure OpRow where
  byte     : Byte
  mnemonic : String
  format   : Format
  opc      : Opc
  deriving DecidableEq, Repr

/-- The opcode map of 30_encoding.md R93, in its order. -/
def opcodeMap : List OpRow :=
  [ ⟨0x10, "DL.NEW", .A, .dlNew⟩,
    ⟨0x11, "DL.EXPIRED", .Z, .dlExpired⟩,
    ⟨0x20, "NTF.RESET", .Z, .ntfReset⟩,
    ⟨0x21, "NTF.SET", .A, .ntfSet⟩,
    ⟨0x22, "NTF.WAIT", .B, .ntfWait⟩,
    ⟨0x30, "RB.PUSH", .V, .rbPush⟩ ] ++
  [ ⟨0x31, "RB.POP", .Z, .rbPop⟩,
    ⟨0x32, "RB.POPT", .A, .rbPopt⟩,
    ⟨0x33, "RB.CLEAR", .Z, .rbClear⟩,
    ⟨0x34, "RB.SIZE", .Z, .rbSize⟩,
    ⟨0x35, "RB.CAP", .Z, .rbCap⟩ ]

/-- The operation an opcode byte names; none for the 245 reserved bytes (30_encoding.md R93, R94: "A decoder matches
all eight bits"). -/
def Opc.ofByte (b : Byte) : Option Opc := (opcodeMap.find? fun r => r.byte == b).map (·.opc)

/-- Why a command is no instruction. -/
inductive DecodeError
  /-- The opcode byte is reserved (30_encoding.md R94). The hardware answers `ill = 1` (R95): the issue of such a
  command sets phase X1, and the decoder's refusal itself stops nothing. -/
  | reservedOpcode (op : Byte)
  deriving DecidableEq, Repr

/-- The operation's instruction with the operand signals its format uses; the other signals are ignored
(30_encoding.md R91). -/
def Opc.instr : Opc → Cmd → Instr
  | .dlNew, m => .dlNew m.arg0
  | .dlExpired, _ => .dlExpired
  | .ntfReset, _ => .ntfReset
  | .ntfSet, m => .ntfSet m.arg0
  | .ntfWait, m => .ntfWait m.arg0 m.arg1
  | .rbPush, m => .rbPush m.wdata
  | .rbPop, _ => .rbPop
  | .rbPopt, m => .rbPopt m.arg0
  | .rbClear, _ => .rbClear
  | .rbSize, _ => .rbSize
  | .rbCap, _ => .rbCap

/-- The decoder (30_encoding.md R91, R93, R94, R98: only `cmd_op` decides). -/
def decode (m : Cmd) : Except DecodeError Instr :=
  match Opc.ofByte m.op with
  | some o => .ok (o.instr m)
  | none => .error (.reservedOpcode m.op)

/-- What the decoder answers, as an Option. -/
def decode? (m : Cmd) : Option Instr := (decode m).toOption

/-- The operation of an instruction. -/
def Instr.opc : Instr → Opc
  | .dlNew _ => .dlNew
  | .dlExpired => .dlExpired
  | .ntfReset => .ntfReset
  | .ntfSet _ => .ntfSet
  | .ntfWait _ _ => .ntfWait
  | .rbPush _ => .rbPush
  | .rbPop => .rbPop
  | .rbPopt _ => .rbPopt
  | .rbClear => .rbClear
  | .rbSize => .rbSize
  | .rbCap => .rbCap

/-- The opcode byte of an operation, from its unit and function fields (30_encoding.md R92, R93). -/
def Opc.byte : Opc → Byte
  | .dlNew => 0x1#4 ++ 0x0#4
  | .dlExpired => 0x1#4 ++ 0x1#4
  | .ntfReset => 0x2#4 ++ 0x0#4
  | .ntfSet => 0x2#4 ++ 0x1#4
  | .ntfWait => 0x2#4 ++ 0x2#4
  | .rbPush => 0x3#4 ++ 0x0#4
  | .rbPop => 0x3#4 ++ 0x1#4
  | .rbPopt => 0x3#4 ++ 0x2#4
  | .rbClear => 0x3#4 ++ 0x3#4
  | .rbSize => 0x3#4 ++ 0x4#4
  | .rbCap => 0x3#4 ++ 0x5#4

/-- The encoder: the command with every ignored field written as zero (30_encoding.md R91). -/
def encode : Instr → Cmd
  | .dlNew d => ⟨Opc.dlNew.byte, d, 0, 0⟩
  | .dlExpired => ⟨Opc.dlExpired.byte, 0, 0, 0⟩
  | .ntfReset => ⟨Opc.ntfReset.byte, 0, 0, 0⟩
  | .ntfSet f => ⟨Opc.ntfSet.byte, f, 0, 0⟩
  | .ntfWait f t => ⟨Opc.ntfWait.byte, f, t, 0⟩
  | .rbPush v => ⟨Opc.rbPush.byte, 0, 0, v⟩
  | .rbPop => ⟨Opc.rbPop.byte, 0, 0, 0⟩
  | .rbPopt t => ⟨Opc.rbPopt.byte, t, 0, 0⟩
  | .rbClear => ⟨Opc.rbClear.byte, 0, 0, 0⟩
  | .rbSize => ⟨Opc.rbSize.byte, 0, 0, 0⟩
  | .rbCap => ⟨Opc.rbCap.byte, 0, 0, 0⟩

/-- The canonical command word `CW = op, arg0, arg1, wdata` side by side, `op` highest, of `72 + ELEM_W` bits
(30_encoding.md R91). -/
def packCW (c : Params) (m : Cmd) : Nat :=
  ((m.op.toNat * 2 ^ 32 + m.arg0.toNat) * 2 ^ 32 + m.arg1.toNat) * 2 ^ c.elemW + m.wdata

/-- The fields of a command word: `op` at bits `71+ELEM_W .. 64+ELEM_W`, `arg0` at `63+ELEM_W .. 32+ELEM_W`, `arg1` at
`31+ELEM_W .. ELEM_W`, `wdata` at `ELEM_W-1 .. 0` (30_encoding.md R91). -/
def unpackCW (c : Params) (w : Nat) : Cmd where
  op := BitVec.ofNat 8 (w >>> (64 + c.elemW))
  arg0 := BitVec.ofNat 32 (w >>> (32 + c.elemW))
  arg1 := BitVec.ofNat 32 (w >>> c.elemW)
  wdata := w % 2 ^ c.elemW

/-- Decoding and encoding of the canonical command word. -/
def decodeCW (c : Params) (w : Nat) : Except DecodeError Instr := decode (unpackCW c w)

/-- The canonical command word of an instruction. -/
def encodeCW (c : Params) (i : Instr) : Nat := packCW c (encode i)

/-- The command whose bits spec/opcode_table.json numbers: its rows give the opcode byte alone, bits 7..0, so `nbits`
is 8 and every operand signal is zero. Were a row to give more bits, they would be `arg0`, `arg1`, `wdata` in the
order of 30_encoding.md R91, counted on from bit 8 (log 18). -/
def tableCmd (nbits w : Nat) : Cmd :=
  let v := w % 2 ^ nbits
  { op := BitVec.ofNat 8 v
    arg0 := BitVec.ofNat 32 (v >>> 8)
    arg1 := BitVec.ofNat 32 (v >>> 40)
    wdata := (v >>> 72) % 2 ^ Config.vectorParams.elemW }

/-- What the decoder reads from an instruction numbered as the opcode table numbers it. -/
def decodeTableWord (nbits w : Nat) : Option Instr := decode? (tableCmd nbits w)

/-- The mnemonic of an operation (30_encoding.md R93). -/
def Opc.mnemonic (o : Opc) : String :=
  match opcodeMap.find? fun r => r.opc == o with
  | some r => r.mnemonic
  | none => ""

/-- The format of an operation (30_encoding.md R91, R93). -/
def Opc.format (o : Opc) : Format :=
  match opcodeMap.find? fun r => r.opc == o with
  | some r => r.format
  | none => .Z

/-- `digits` hexadecimal digits of `n`, most significant first. -/
def hexDigits : Nat → Nat → String
  | 0, _ => ""
  | k + 1, n => hexDigits k (n / 16) ++ String.ofList [Nat.digitChar (n % 16)]

/-- The assembler line: the mnemonic, then the operands, comma-separated, in decimal (30_encoding.md R102). -/
def Instr.asm (i : Instr) : String :=
  match i with
  | .dlNew d => i.opc.mnemonic ++ " " ++ toString d.toNat
  | .ntfSet f => i.opc.mnemonic ++ " " ++ toString f.toNat
  | .ntfWait f t => i.opc.mnemonic ++ " " ++ toString f.toNat ++ ", " ++ toString t.toNat
  | .rbPush v => i.opc.mnemonic ++ " " ++ toString v
  | .rbPopt t => i.opc.mnemonic ++ " " ++ toString t.toNat
  | .dlExpired | .ntfReset | .rbPop | .rbClear | .rbSize | .rbCap => i.opc.mnemonic

/-- The listing form `op arg0 arg1 wdata` in hexadecimal, with `-` for an ignored field (30_encoding.md R102). -/
def Instr.listing (c : Params) (i : Instr) : String :=
  let m := encode i
  let a := hexDigits 8 m.arg0.toNat
  let b := hexDigits 8 m.arg1.toNat
  let v := hexDigits ((c.elemW + 3) / 4) m.wdata
  hexDigits 2 m.op.toNat ++ match i.opc.format with
    | .Z => " - - -"
    | .A => " " ++ a ++ " - -"
    | .B => " " ++ a ++ " " ++ b ++ " -"
    | .V => " - - " ++ v

end Sys2Proof
end

