-- ==== Sys2Proof/Machine/State.lean ====
section
/-! DEFINITION. The state of the block (10_state.md R20), the reasons a step can stop, and the state after reset
(10_state.md R40, 70_reset_and_hazards.md R260). -/

namespace Sys2Proof.Machine

/-- A Deadline, the pair of 10_state.md R23 and R24. -/
structure Deadline where
  target    : Word
  unlimited : Bool
  deriving DecidableEq, Repr

/-- The phase register `phase[p]`: idle, or a pair of an operation and a micro-step label (10_state.md R34). The labels
are those of the operations' rules. RB.CLEAR and RB.SIZE have two micro-steps "in either order" (42_ringbuffer.md R179,
R180): `clearK` and `sizeQ` stand before both, `clearK1` before the last one, K1, and so on. -/
inductive Phase
  | idle
  /-- a reserved opcode in flight (30_encoding.md R95) -/
  | reservedX1
  | newN1 | expiredE1
  | resetZ1 | setS1
  | waitW0 | waitW1 | waitW2 | waitW3
  | pushP1 | pushP2 | pushP3 | pushP4
  | popC1 | popC2 | popC3 | popC4
  | poptT0 | poptC1 | poptC2 | poptC3 | poptC4 | poptT1 | poptT2
  | clearK | clearK1 | clearK2
  | sizeQ | sizeQ1 | sizeQ2
  | capA1
  deriving DecidableEq, Repr

/-- The per-port registers (10_state.md R20, R30, R32, R33, R34, R23, R24). `dlCreated` is the model's own: whether a
DL.NEW has completed on the port since reset (40_deadline.md R127, log 7). -/
structure Port where
  phase     : Phase
  op        : Byte
  arg0      : Word
  arg1      : Word
  wdata     : Elem
  rspIll    : Bool
  rspOk     : Bool
  rspData   : Nat
  dl        : Deadline
  dlCreated : Bool
  tNow      : Word
  /-- `t.dl_target[p]` and `t.dl_unl[p]` -/
  tDl       : Deadline
  tF        : Word
  tW        : Nat
  tR        : Nat
  tV        : Elem
  deriving DecidableEq, Repr

/-- The ring storage (10_state.md R28) as a list of slot and element, slots strictly rising. An unlisted slot is one
nothing has been written to since reset: it has no value of its own (10_state.md R40, log 8), so no entry can equal
what an unlisted slot reads as. -/
abbrev Memory := List (Nat × Elem)

/-- The whole state (10_state.md R20), and the model's own fields: the build parameters (log 1), the moves to come and
the count of free ones (log 2), the generation of unspecified contents (log 7, log 8), whose turn it is (log 4), and
which port's `rsp_valid` pulses (30_encoding.md R90, R101, log 14). -/
structure State where
  tick        : Word
  raisedFlags : Word
  writeIndex  : Nat
  readIndex   : Nat
  storage     : Memory
  ports       : List Port
  rspValid    : Option Nat
  params      : Params
  inputs      : List Input
  draws       : Nat
  epoch       : Nat
  active      : Nat
  swap        : Bool
  deriving DecidableEq, Repr

/-- The faults of the model. The block itself raises no exception (60_exceptions.md R220). -/
inductive Fault
  /-- Raised by `step` for an input that names a port `p >= NPORTS`: the block has no such port (30_encoding.md R90,
  log 13). Safe: the machine stops where no hardware exists. -/
  | noSuchPort
  deriving DecidableEq, Repr

/-- The refusals of the model. -/
inductive Refusal
  /-- An instruction whose meaning is not written yet. Raised by `exec` alone. Safe. -/
  | notModelled (mnemonic : String)
  /-- Raised by the accesses to the indices and the storage for an index outside `0 .. N-1`: unreachable, and the state
  is refused (20_memory.md R63, 92_eei_decisions.md D8, log 11). Safe. -/
  | indexOutOfRange
  /-- Raised by a meaning asked to run although the port whose turn it is does not stand at one of its micro-steps;
  unreachable from reset (10_state.md R34, log 12). Safe. -/
  | notInFlight
  /-- Raised by a micro-step of a port whose phase is that of an operation and whose latched opcode is reserved;
  unreachable from reset (30_encoding.md R99, log 12). Safe. -/
  | undecodable
  deriving DecidableEq, Repr

/-- The registers of a port after reset: IDLE, everything else unspecified by 10_state.md R40 and named here (log 6). -/
def Port.reset : Port where
  phase := .idle
  op := 0
  arg0 := 0
  arg1 := 0
  wdata := 0
  rspIll := false
  rspOk := false
  rspData := 0
  dl := ⟨0, false⟩
  dlCreated := false
  tNow := 0
  tDl := ⟨0, false⟩
  tF := 0
  tW := 0
  tR := 0
  tV := 0

/-- The block of parameters `c` right after reset, at the tick `tick`, which the block does not control
(10_state.md R40). -/
def State.resetAt (c : Params) (tick : Word) : State where
  tick := tick
  raisedFlags := 0
  writeIndex := 0
  readIndex := 0
  storage := []
  ports := List.replicate c.nports Port.reset
  rspValid := none
  params := c
  inputs := []
  draws := 0
  epoch := 0
  active := 0
  swap := false

/-- The machine right after reset: the vectors' parameters (log 1) and tick 0 (log 5). -/
def State.reset : State := State.resetAt Config.vectorParams 0

end Sys2Proof.Machine
end

