-- ==== Sys2Proof/Machine/Operands.lean ====
section
/-! DEFINITION. Operand and result widths (20_memory.md R62, 30_encoding.md R91, R97) and the index arithmetic of the
ring (10_state.md R29, 42_ringbuffer.md R173). -/

namespace Sys2Proof.Machine

/-- `trunc_ELEM_W`: an element signal carries `ELEM_W` bits (00_scope.md R8, 20_memory.md R62). -/
def truncElem (c : Params) (v : Elem) : Elem := v % 2 ^ c.elemW

/-- `trunc_FLAG_W` of a 32-bit operand; with `FLAG_W = 32` nothing is cut off (30_encoding.md R97). -/
def truncFlags (v : Word) : Word := v

/-- `zext_DATA_W`: a result narrower than `DATA_W` keeps its value (20_memory.md R62). A count too large for `DATA_W`
bits has no stated image: a free value of that width (log 10). -/
def zextData (c : Params) (v : Nat) : Nat :=
  if v < 2 ^ c.dataW then v else Config.freeWide v % 2 ^ c.dataW

/-- A boolean as a bit (00_scope.md R8: "as a bit, `true` is 1"). -/
def bit (b : Bool) : Nat := if b then 1 else 0

/-- The command latched on a port (10_state.md R30). -/
def Port.cmd (q : Port) : Cmd := ⟨q.op, q.arg0, q.arg1, q.wdata⟩

/-- `next(i) = (i + 1) mod N` (42_ringbuffer.md R173). -/
def nextIdx (c : Params) (i : Nat) : Nat := (i + 1) % c.slots

/-- `empty(w, r)` (10_state.md R29). -/
def ringEmpty (w r : Nat) : Bool := w == r

/-- `full(w, r)` (10_state.md R29). -/
def ringFull (c : Params) (w r : Nat) : Bool := nextIdx c w == r

/-- `size(w, r) = (w - r) mod N`, the non-negative remainder (10_state.md R29, 00_scope.md R8). -/
def ringSize (c : Params) (w r : Nat) : Nat := (((w : Int) - (r : Int)) % (c.slots : Int)).toNat

end Sys2Proof.Machine
end

