-- ==== Sys2Proof/Machine/Flags.lean ====
section
/-! DEFINITION. The two kinds of flag (10_state.md R42): the notifier's raised flags and a port's response bits. The
block has no arithmetic condition code. -/

namespace Sys2Proof.Machine

/-- `raised_flags | m` (00_scope.md R9, `FetchOr`). -/
def raiseFlags (raised m : Word) : Word := raised ||| m

/-- The matching subset of raised flags (41_notifier.md R145, R152). -/
def matchFlags (raised wanted : Word) : Word := raised &&& wanted

/-- The response registers after `complete(p, ill, ok, data)`, and the port idle (30_encoding.md R101). -/
def Port.respond (q : Port) (ill ok : Bool) (data : Nat) : Port :=
  { q with rspIll := ill, rspOk := ok, rspData := data, phase := .idle }

end Sys2Proof.Machine
end

