-- ==== Sys2Proof/Machine/Ops.lean ====
section
/-! DEFINITION. The pseudocode primitives (00_scope.md R9) as operations over State: the ring storage, the ports, the
atomic accesses (20_memory.md R64), `complete` (30_encoding.md R101), the yield (60_exceptions.md R239), the issue
(30_encoding.md R99), the step of the TickSource (10_state.md R22) and the hardware reset (70_reset_and_hazards.md
R260). The block takes no exception and returns from none (60_exceptions.md R220, R227, R228): `complete` is how an
unsuccessful operation ends. -/

namespace Sys2Proof.Machine

/-- The three outcomes of a step of this machine. -/
abbrev Out := Host.Outcome State Fault Refusal

/-- What was last written to a slot since reset, if anything (10_state.md R28). -/
def Memory.read : Memory → Nat → Option Elem
  | [], _ => none
  | (j, v) :: rest, i => if i = j then some v else if i < j then none else Memory.read rest i

/-- The storage after a write of one whole element (20_memory.md R64), in canonical form again. -/
def Memory.write : Memory → Nat → Elem → Memory
  | [], i, v => [(i, v)]
  | (j, u) :: rest, i, v =>
    if i = j then (i, v) :: rest
    else if i < j then (i, v) :: (j, u) :: rest
    else (j, u) :: Memory.write rest i v

/-- The canonical form: slots strictly rising. -/
def Memory.wf : Memory → Bool
  | [] => true
  | [_] => true
  | (i, _) :: (j, v) :: rest => i < j && Memory.wf ((j, v) :: rest)

namespace State

/-- The registers of port `p`. -/
def port (s : State) (p : Nat) : Port := s.ports.getD p Port.reset

/-- The port whose turn it is: the `p` of a rule's pseudocode. -/
def me (s : State) : Port := s.port s.active

/-- The state with the registers of port `p` replaced. -/
def setPort (s : State) (p : Nat) (q : Port) : State := { s with ports := s.ports.set p q }

/-- The state with the registers of the port whose turn it is changed. -/
def updMe (s : State) (f : Port → Port) : State := s.setPort s.active (f s.me)

/-- `phase[p] <- L` (00_scope.md R9). -/
def goto (s : State) (l : Phase) : State := s.updMe fun q => { q with phase := l }

/-- `cmd_ready[p]`: 1 exactly when the port is idle (30_encoding.md R90). -/
def cmdReady (s : State) (p : Nat) : Bool := (s.port p).phase == .idle

/-- `complete(p, ill, ok, data)`: the response registers, the phase, and the pulse of `rsp_valid[p]`
(30_encoding.md R101). -/
def complete (s : State) (ill ok : Bool) (data : Nat) : State :=
  { s.updMe (fun q => q.respond ill ok data) with rspValid := some s.active }

/-- The element slot `i` holds: what was last written to it, else a free element of `ELEM_W` bits, the same at every
read until it is written or the block is reset (20_memory.md R67, log 8). -/
def slot (s : State) (i : Nat) : Elem :=
  match Memory.read s.storage i with
  | some v => v
  | none => truncElem s.params (Config.freeElem s.epoch i)

/-- `DL[p]` as DL.EXPIRED reads it: the register, or before the first DL.NEW since reset a free deadline, the same at
every read (40_deadline.md R127, log 7). -/
def readDl (s : State) (p : Nat) : Deadline :=
  if (s.port p).dlCreated then (s.port p).dl
  else ⟨(Config.freeDeadline s.epoch p).1, (Config.freeDeadline s.epoch p).2⟩

/-- `Load(TICK)` (20_memory.md R64). -/
def loadTick (s : State) : Word := s.tick

/-- `Load(raised_flags)` (20_memory.md R64). -/
def loadFlags (s : State) : Word := s.raisedFlags

/-- `Store(raised_flags, v)` (20_memory.md R64). -/
def storeFlags (s : State) (v : Word) : State := { s with raisedFlags := v }

/-- `FetchOr(raised_flags, m)`, one atomic read-modify-write (20_memory.md R64, R74). -/
def fetchOrFlags (s : State) (m : Word) : State := { s with raisedFlags := raiseFlags s.raisedFlags m }

/-- `Load(write_index)`; an index outside `0 .. N-1` refuses the state (20_memory.md R64, R63). -/
def loadWriteIndex (s : State) (k : Nat → Out) : Out :=
  if s.writeIndex < s.params.slots then k s.writeIndex else .refused .indexOutOfRange

/-- `Load(read_index)`; an index outside `0 .. N-1` refuses the state (20_memory.md R64, R63). -/
def loadReadIndex (s : State) (k : Nat → Out) : Out :=
  if s.readIndex < s.params.slots then k s.readIndex else .refused .indexOutOfRange

/-- `Store(write_index, v)` (20_memory.md R64). -/
def storeWriteIndex (s : State) (v : Nat) : State := { s with writeIndex := v }

/-- `Store(read_index, v)` (20_memory.md R64). -/
def storeReadIndex (s : State) (v : Nat) : State := { s with readIndex := v }

/-- `MemRead(i, 1)`, the whole element (20_memory.md R64, R60); a slot that does not exist refuses the state (R63). -/
def memRead (s : State) (i : Nat) (k : Elem → Out) : Out :=
  if i < s.params.slots then k (s.slot i) else .refused .indexOutOfRange

/-- The state with all `ELEM_W` bits of slot `i` written (20_memory.md R60). -/
def storeSlot (s : State) (i : Nat) (v : Elem) : State :=
  { s with storage := Memory.write s.storage i (truncElem s.params v) }

/-- `MemWrite(i, 1, v)`, all `ELEM_W` bits (20_memory.md R64, R60); a slot that does not exist refuses the state
(R63). -/
def memWrite (s : State) (i : Nat) (v : Elem) (k : State → Out) : Out :=
  if i < s.params.slots then k (s.storeSlot i v) else .refused .indexOutOfRange

/-- `yield`: changes no state of the block; the phase that follows it is the operation's (60_exceptions.md R239). -/
def yield (s : State) : State := s

/-- The one step of the TickSource (10_state.md R22). -/
def tickStep (s : State) : State := { s with tick := s.tick + 1 }

/-- The hardware reset: every register at its reset value, the tick untouched, every operation in flight abandoned
(70_reset_and_hazards.md R260). What reset leaves unspecified is unspecified anew: a new generation (log 21). -/
def hwReset (s : State) : State :=
  { State.resetAt s.params s.tick with inputs := s.inputs, draws := s.draws, epoch := s.epoch + 1 }

end State

/-- The first micro-step label of an operation (30_encoding.md R99). -/
def firstPhaseOf : Opc → Phase
  | .dlNew => .newN1
  | .dlExpired => .expiredE1
  | .ntfReset => .resetZ1
  | .ntfSet => .setS1
  | .ntfWait => .waitW0
  | .rbPush => .pushP1
  | .rbPop => .popC1
  | .rbPopt => .poptT0
  | .rbClear => .clearK
  | .rbSize => .sizeQ
  | .rbCap => .capA1

/-- The first phase of a command: X1 for a reserved opcode (30_encoding.md R99, R95). -/
def firstPhase (op : Byte) : Phase :=
  match Opc.ofByte op with
  | some o => firstPhaseOf o
  | none => .reservedX1

/-- The operation a phase belongs to; none for IDLE and for X1 (10_state.md R34). -/
def Phase.opc : Phase → Option Opc
  | .idle | .reservedX1 => none
  | .newN1 => some .dlNew
  | .expiredE1 => some .dlExpired
  | .resetZ1 => some .ntfReset
  | .setS1 => some .ntfSet
  | .waitW0 | .waitW1 | .waitW2 | .waitW3 => some .ntfWait
  | .pushP1 | .pushP2 | .pushP3 | .pushP4 => some .rbPush
  | .popC1 | .popC2 | .popC3 | .popC4 => some .rbPop
  | .poptT0 | .poptC1 | .poptC2 | .poptC3 | .poptC4 | .poptT1 | .poptT2 => some .rbPopt
  | .clearK | .clearK1 | .clearK2 => some .rbClear
  | .sizeQ | .sizeQ1 | .sizeQ2 => some .rbSize
  | .capA1 => some .rbCap

/-- The issue on an idle port: the operand registers latch the command's signals and the phase becomes the operation's
first label (30_encoding.md R99, 10_state.md R30). `cmd_wdata` has `ELEM_W` wires. -/
def Port.latch (c : Params) (q : Port) (m : Cmd) : Port :=
  { q with op := m.op, arg0 := m.arg0, arg1 := m.arg1, wdata := truncElem c m.wdata, phase := firstPhase m.op }

end Sys2Proof.Machine
end

