-- ==== Sys2Proof/Machine/Deadline.lean ====
section
/-! DEFINITION. DL, the deadline evaluator: the two pure functions (40_deadline.md R120, R121), the deadline micro-steps
they give NTF.WAIT and RB.POPT (R131), and the operations DL.NEW (R124) and DL.EXPIRED (R125, R127). -/

namespace Sys2Proof.Machine

/-- `signed_32(v)`, the two's-complement reading (00_scope.md R8). -/
def signed32 (v : Word) : Int := if v.toNat < 2 ^ 31 then (v.toNat : Int) else (v.toNat : Int) - 2 ^ 32

/-- `dl_new(now, duration)` (40_deadline.md R120). -/
def dlNew (now duration : Word) : Deadline := ⟨now + duration, duration == Config.sentinelMax⟩

/-- `dl_expired(dl, now)` (40_deadline.md R121). -/
def dlExpired (dl : Deadline) (now : Word) : Bool :=
  if dl.unlimited then false else 0 ≤ signed32 (now - dl.target)

/-- The first micro-step of a timed wait, W0 and T0: build the operation's own deadline and go on at `l`
(40_deadline.md R131, 41_notifier.md R145, 42_ringbuffer.md R178). -/
def startDeadline (timeout : Word) (l : Phase) (s : State) : Out :=
  .next (s.updMe fun q => { q with tNow := s.loadTick, tDl := dlNew s.loadTick timeout, phase := l })

/-- The deadline test of a polling round, W2 and T1: time out, or go on at `l` (41_notifier.md R145,
42_ringbuffer.md R178). -/
def checkDeadline (l : Phase) (s : State) : Out :=
  let t := s.updMe fun q => { q with tNow := s.loadTick }
  if dlExpired s.me.tDl s.loadTick then .next (t.complete false false 0) else .next (t.goto l)

/-- `DL.NEW duration`, micro-step N1 (40_deadline.md R124). -/
def execDlNew (duration : Word) (s : State) : Out :=
  match s.me.phase with
  | .newN1 =>
    let t := s.updMe fun q =>
      { q with tNow := s.loadTick, dl := dlNew s.loadTick duration, dlCreated := true }
    .next (t.complete false true 0)
  | _ => .refused .notInFlight

/-- `DL.EXPIRED`, micro-step E1 (40_deadline.md R125); before the first DL.NEW on the port it computes on what the
register holds, a free value (R127, log 7). -/
def execDlExpired (s : State) : Out :=
  match s.me.phase with
  | .expiredE1 =>
    let t := s.updMe fun q => { q with tNow := s.loadTick }
    .next (t.complete false true (zextData s.params (bit (dlExpired (s.readDl s.active) s.loadTick))))
  | _ => .refused .notInFlight

end Sys2Proof.Machine
end

