-- ==== Sys2Proof/Machine/Notifier.lean ====
section
/-! DEFINITION. NTF, the multi-flag notifier: NTF.RESET (41_notifier.md R143), NTF.SET (R144), NTF.WAIT (R145). -/

namespace Sys2Proof.Machine

/-- `NTF.RESET`, micro-step Z1 (41_notifier.md R143). -/
def execNtfReset (s : State) : Out :=
  match s.me.phase with
  | .resetZ1 => .next ((s.storeFlags 0).complete false true 0)
  | _ => .refused .notInFlight

/-- `NTF.SET flags`, micro-step S1 (41_notifier.md R144). -/
def execNtfSet (flags : Word) (s : State) : Out :=
  match s.me.phase with
  | .setS1 => .next ((s.fetchOrFlags (truncFlags flags)).complete false true 0)
  | _ => .refused .notInFlight

/-- W1 of NTF.WAIT: one look at the flags; the snapshot's matching subset is the answer (41_notifier.md R145, R152). -/
def waitLook (flags : Word) (s : State) : Out :=
  let t := s.updMe fun q => { q with tF := s.loadFlags }
  let hit := matchFlags s.loadFlags (truncFlags flags)
  if hit ≠ 0 then .next (t.complete false true (zextData s.params hit.toNat)) else .next (t.goto .waitW2)

/-- `NTF.WAIT flags, timeout`, micro-steps W0 to W3 (41_notifier.md R145). -/
def execNtfWait (flags timeout : Word) (s : State) : Out :=
  match s.me.phase with
  | .waitW0 => startDeadline timeout .waitW1 s
  | .waitW1 => waitLook flags s
  | .waitW2 => checkDeadline .waitW3 s
  | .waitW3 => .next (s.yield.goto .waitW1)
  | _ => .refused .notInFlight

end Sys2Proof.Machine
end

