-- ==== Sys2Proof/Machine/Ring.lean ====
section
/-! DEFINITION. RB, the ring buffer: RB.PUSH (42_ringbuffer.md R176), RB.POP (R177), RB.POPT (R178), RB.CLEAR (R179),
RB.SIZE (R180), RB.CAP (R181). -/

namespace Sys2Proof.Machine

/-- `RB.PUSH value`, micro-steps P1 to P4 (42_ringbuffer.md R176). -/
def execRbPush (value : Elem) (s : State) : Out :=
  match s.me.phase with
  | .pushP1 => s.loadWriteIndex fun w => .next (s.updMe fun q => { q with tW := w, phase := .pushP2 })
  | .pushP2 => s.loadReadIndex fun r =>
    let t := s.updMe fun q => { q with tR := r }
    if ringFull s.params s.me.tW r then .next (t.complete false false 0) else .next (t.goto .pushP3)
  | .pushP3 => s.memWrite s.me.tW value fun t => .next (t.goto .pushP4)
  | .pushP4 => .next ((s.storeWriteIndex (nextIdx s.params s.me.tW)).complete false true 0)
  | _ => .refused .notInFlight

/-- C1: load the consumer's own index and go on at `l` (42_ringbuffer.md R177). -/
def popLoadRead (l : Phase) (s : State) : Out :=
  s.loadReadIndex fun r => .next (s.updMe fun q => { q with tR := r, phase := l })

/-- C2: load the producer's index; go on at `l`, or do `onEmpty` on the state that holds the loaded index
(42_ringbuffer.md R177, R178). -/
def popLoadWrite (l : Phase) (onEmpty : State → State) (s : State) : Out :=
  s.loadWriteIndex fun w =>
    let t := s.updMe fun q => { q with tW := w }
    if ringEmpty w s.me.tR then .next (onEmpty t) else .next (t.goto l)

/-- C3: read the element before giving the slot back, and go on at `l` (42_ringbuffer.md R177). -/
def popRead (l : Phase) (s : State) : Out :=
  s.memRead s.me.tR fun v => .next (s.updMe fun q => { q with tV := v, phase := l })

/-- C4: give the slot back and answer the element (42_ringbuffer.md R177). -/
def popFinish (s : State) : Out :=
  .next ((s.storeReadIndex (nextIdx s.params s.me.tR)).complete false true (zextData s.params s.me.tV))

/-- `RB.POP`, micro-steps C1 to C4 (42_ringbuffer.md R177). -/
def execRbPop (s : State) : Out :=
  match s.me.phase with
  | .popC1 => popLoadRead .popC2 s
  | .popC2 => popLoadWrite .popC3 (fun t => t.complete false false 0) s
  | .popC3 => popRead .popC4 s
  | .popC4 => popFinish s
  | _ => .refused .notInFlight

/-- `RB.POPT timeout`, micro-steps T0, C1 to C4, T1, T2: attempt, then deadline, then yield (42_ringbuffer.md R178,
log 16). -/
def execRbPopt (timeout : Word) (s : State) : Out :=
  match s.me.phase with
  | .poptT0 => startDeadline timeout .poptC1 s
  | .poptC1 => popLoadRead .poptC2 s
  | .poptC2 => popLoadWrite .poptC3 (fun t => t.goto .poptT1) s
  | .poptC3 => popRead .poptC4 s
  | .poptC4 => popFinish s
  | .poptT1 => checkDeadline .poptT2 s
  | .poptT2 => .next (s.yield.goto .poptC1)
  | _ => .refused .notInFlight

/-- `RB.CLEAR`, micro-steps K1 and K2 in the order the turn's `swap` says (42_ringbuffer.md R179, log 4). -/
def execRbClear (s : State) : Out :=
  match s.me.phase with
  | .clearK =>
    if s.swap then .next ((s.storeReadIndex 0).goto .clearK1) else .next ((s.storeWriteIndex 0).goto .clearK2)
  | .clearK1 => .next ((s.storeWriteIndex 0).complete false true 0)
  | .clearK2 => .next ((s.storeReadIndex 0).complete false true 0)
  | _ => .refused .notInFlight

/-- `RB.SIZE`, micro-steps Q1 and Q2 in the order the turn's `swap` says (42_ringbuffer.md R180, log 4). -/
def execRbSize (s : State) : Out :=
  match s.me.phase with
  | .sizeQ =>
    if s.swap then s.loadReadIndex fun r => .next (s.updMe fun q => { q with tR := r, phase := .sizeQ1 })
    else s.loadWriteIndex fun w => .next (s.updMe fun q => { q with tW := w, phase := .sizeQ2 })
  | .sizeQ1 => s.loadWriteIndex fun w =>
    let t := s.updMe fun q => { q with tW := w }
    .next (t.complete false true (zextData s.params (ringSize s.params w s.me.tR)))
  | .sizeQ2 => s.loadReadIndex fun r =>
    let t := s.updMe fun q => { q with tR := r }
    .next (t.complete false true (zextData s.params (ringSize s.params s.me.tW r)))
  | _ => .refused .notInFlight

/-- `RB.CAP`, micro-step A1 (42_ringbuffer.md R181). -/
def execRbCap (s : State) : Out :=
  match s.me.phase with
  | .capA1 => .next (s.complete false true (zextData s.params s.params.capacity))
  | _ => .refused .notInFlight

end Sys2Proof.Machine
end

