-- ==== Sys2Proof/Machine/Dispatch.lean ====
section
/-! DEFINITION. One arm for each operation of the opcode map (30_encoding.md R93). -/

namespace Sys2Proof.Machine

/-- One micro-step of the instruction `i` on the port whose turn it is (30_encoding.md R100). -/
def exec (i : Instr) (s : State) : Host.Outcome State Fault Refusal :=
  match i with
  | .dlNew duration => Sys2Proof.Machine.execDlNew duration s
  | .dlExpired => Sys2Proof.Machine.execDlExpired s
  | .ntfReset => Sys2Proof.Machine.execNtfReset s
  | .ntfSet flags => Sys2Proof.Machine.execNtfSet flags s
  | .ntfWait flags timeout => Sys2Proof.Machine.execNtfWait flags timeout s
  | .rbPush value => Sys2Proof.Machine.execRbPush value s
  | .rbPop => Sys2Proof.Machine.execRbPop s
  | .rbPopt timeout => Sys2Proof.Machine.execRbPopt timeout s
  | .rbClear => Sys2Proof.Machine.execRbClear s
  | .rbSize => Sys2Proof.Machine.execRbSize s
  | .rbCap => Sys2Proof.Machine.execRbCap s

end Sys2Proof.Machine
end

