-- ==== Sys2Proof/Machine/Schedule.lean ====
section
/-! DEFINITION. The three kinds of step of an execution (60_exceptions.md R237) and how a state says which comes next
(log 2): the head of the list of inputs, or a free value where that list is empty. -/

namespace Sys2Proof.Machine

/-- An input with its port number brought into `0 .. n-1`, so that a free input names a port the block has (log 2). -/
def Input.onPorts (n : Nat) : Input → Input
  | .tick => .tick
  | .rst => .rst
  | .issue p m => .issue (p % n) m
  | .micro p b => .micro (p % n) b

namespace State

/-- The move that comes next (60_exceptions.md R237: "Any enabled step may be next"). -/
def nextInput (s : State) : Input :=
  match s.inputs with
  | i :: _ => i
  | [] => Input.onPorts s.params.nports (Config.freeInput s.draws)

/-- The state once that move has been taken up: the list is shorter, or one more free move is drawn; the pulse of
`rsp_valid` is over (30_encoding.md R101, log 14). -/
def begin (s : State) : State :=
  match s.inputs with
  | _ :: rest => { s with inputs := rest, rspValid := none }
  | [] => { s with draws := s.draws + 1, rspValid := none }

/-- The state in which it is port `p`'s turn. -/
def turn (s : State) (p : Nat) (swap : Bool) : State := { s with active := p, swap := swap }

end State

/-- X1, the one micro-step of a reserved opcode (30_encoding.md R95). -/
def execReserved (s : State) : Out := .next (s.complete true false 0)

/-- A command offered on port `p`: an idle port latches it, a busy one has `cmd_ready = 0` and takes nothing
(30_encoding.md R90, R99, log 3). -/
def issueStep (p : Nat) (m : Cmd) (s : State) : Out :=
  if p < s.params.nports then
    if s.cmdReady p then .next (s.setPort p ((s.port p).latch s.params m)) else .next s
  else .fault .noSuchPort

/-- A turn of port `p`: a busy port performs the micro-step its phase names of the operation it has latched
(30_encoding.md R100), an idle one has none (log 3). -/
def microStep (p : Nat) (swap : Bool) (s : State) : Out :=
  if p < s.params.nports then
    match (s.port p).phase with
    | .idle => .next s
    | .reservedX1 => execReserved (s.turn p swap)
    | _ =>
      match decode (s.port p).cmd with
      | .ok i => exec i (s.turn p swap)
      | .error _ => .refused .undecodable
  else .fault .noSuchPort

/-- What an input does to a state that has taken it up. -/
def inputStep (i : Input) (s : State) : Out :=
  match i with
  | .tick => .next s.tickStep
  | .rst => .next s.hwReset
  | .issue p m => issueStep p m s
  | .micro p b => microStep p b s

/-- Port 0 as the issue of the command leaves it, and its turn next: how an instruction given from outside is placed
(log 19). -/
def placeCommand (s : State) (m : Cmd) : State :=
  { s.setPort 0 ((s.port 0).latch s.params m) with inputs := .micro 0 false :: s.inputs }

end Sys2Proof.Machine
end

