-- ==== Sys2Proof/Machine/Step.lean ====
section
/-! DEFINITION. One step of the machine (60_exceptions.md R237), and placing an instruction so that the very next step
runs it (log 19). -/

namespace Sys2Proof.Machine

/-- One step: the next input is taken up and does what it does. -/
def step (s : State) : Host.Outcome State Fault Refusal := inputStep s.nextInput s.begin

/-- The state with an instruction, numbered as the opcode table numbers it, in flight on port 0 and that port's turn
next, so that the next step performs the instruction's first micro-step (log 18, log 19). -/
def State.withFetchWord (s : State) (nbits w : Nat) : State := placeCommand s (tableCmd nbits w)

end Sys2Proof.Machine
end

