-- ==== Sys2Proof/Machine/Execution.lean ====
section
/-! DEFINITION. Infinite executions and which of them are fair (60_exceptions.md R234, R237, 92_eei_decisions.md D13).
A schedule supplies the move of each step; a statement about executions quantifies over all schedules (log 20). -/

namespace Sys2Proof.Machine

/-- The state with one move to come, whatever moves it listed before. -/
def State.offered (s : State) (i : Input) : State := { s with inputs := [i] }

/-- An infinite execution: every state is followed by what the step with the scheduled move makes of it
(60_exceptions.md R237). -/
def Execution (sched : Nat → Input) (run : Nat → State) : Prop :=
  ∀ n, step ((run n).offered (sched n)) = .next (run (n + 1))

/-- The fairness of 60_exceptions.md R237 refinement 2 and R234 item 2. -/
structure Fair (sched : Nat → Input) (run : Nat → State) : Prop where
  /-- The TickSource steps infinitely often. -/
  ticks : ∀ n, ∃ m, n ≤ m ∧ sched m = .tick
  /-- A port that stays busy takes micro-steps infinitely often. -/
  ports : ∀ p n, (∀ m, n ≤ m → ((run m).port p).phase ≠ .idle) → ∃ m b, n ≤ m ∧ sched m = .micro p b

/-- The true number of ticks from time `n` to time `m`, not reduced (40_deadline.md R123). -/
def elapsed (sched : Nat → Input) (n m : Nat) : Nat := (List.range' n (m - n)).countP fun k => sched k == .tick

/-- The micro-steps that consult a timed operation's own deadline (41_notifier.md R145, 42_ringbuffer.md R178). -/
def Phase.consults : Phase → Bool
  | .waitW2 | .poptT1 => true
  | _ => false

/-- At time `m` port `p` consults its operation's own deadline. -/
def ConsultsAt (sched : Nat → Input) (run : Nat → State) (p m : Nat) : Prop :=
  ((run m).port p).phase.consults = true ∧ ∃ b, sched m = .micro p b

/-- The operation whose deadline of duration `d` port `p` made at time `n` does not consult it for the first time `2^31`
ticks or more after it expired (70_reset_and_hazards.md R277: the bound `e < D + 2^31`, and only for a consultation that
every earlier one came before expiry to). -/
def ConsultedInTime (sched : Nat → Input) (run : Nat → State) (p n : Nat) (d : Word) : Prop :=
  ∀ m, n < m → (∀ k, n ≤ k → k ≤ m → ((run k).port p).phase ≠ .idle) → ConsultsAt sched run p m →
    (∀ j, n < j → j < m → ConsultsAt sched run p j → elapsed sched n j < d.toNat) →
    elapsed sched n m < d.toNat + 2 ^ 31

end Sys2Proof.Machine
end

