-- ==== Sys2Proof/Safety.lean ====
section
/-! DEFINITION. The words statements are written in: well-formed states (10_state.md R35), frames, runs of one
operation's micro-steps, the abstract queue (42_ringbuffer.md R185), and the disciplines software keeps
(70_reset_and_hazards.md R270 to R279), which the machine never checks (60_exceptions.md R229). -/

namespace Sys2Proof.Machine

/-! ## Well-formed states -/

/-- The phase is one of the operation the latched opcode names (30_encoding.md R99, 10_state.md R34). -/
def Port.phaseOk (q : Port) : Bool :=
  match q.phase with
  | .idle => true
  | l => Opc.ofByte q.op == l.opc

/-- The registers of a port hold values of their widths (10_state.md R20, R33). -/
def Port.wf (c : Params) (q : Port) : Bool :=
  q.phaseOk && q.wdata < 2 ^ c.elemW && q.tV < 2 ^ c.elemW && q.rspData < 2 ^ c.dataW &&
    q.tW < c.slots && q.tR < c.slots

/-- Every listed slot exists and holds `ELEM_W` bits (10_state.md R28). -/
def Memory.inRange (c : Params) (m : Memory) : Bool := m.all fun e => e.1 < c.slots && e.2 < 2 ^ c.elemW

/-- The well-formed states: one port record for each port, indices in `0 .. N-1` (10_state.md R35), the storage in
canonical form, every register within its width, inputs for ports the block has. -/
def State.wf (s : State) : Bool :=
  s.params.ok && s.ports.length == s.params.nports &&
    s.writeIndex < s.params.slots && s.readIndex < s.params.slots &&
    Memory.wf s.storage && Memory.inRange s.params s.storage &&
    s.ports.all (Port.wf s.params) && s.inputs.all (Input.wf s.params) &&
    (match s.rspValid with
      | none => true
      | some p => p < s.params.nports)

/-! ## Frames -/

/-- The other ports keep all their registers (60_exceptions.md R238). -/
def OthersSame (s t : State) : Prop := ∀ p, p ≠ s.active → t.port p = s.port p

/-- The port whose turn it is keeps its operand registers (10_state.md R30). -/
def OwnOperandsSame (s t : State) : Prop :=
  t.me.op = s.me.op ∧ t.me.arg0 = s.me.arg0 ∧ t.me.arg1 = s.me.arg1 ∧ t.me.wdata = s.me.wdata

/-- The port whose turn it is keeps its Deadline (10_state.md R37). -/
def OwnDeadlineSame (s t : State) : Prop := t.me.dl = s.me.dl ∧ t.me.dlCreated = s.me.dlCreated

/-- The port whose turn it is keeps its response registers, and no `rsp_valid` pulses (30_encoding.md R101). -/
def OwnResponseSame (s t : State) : Prop :=
  t.me.rspIll = s.me.rspIll ∧ t.me.rspOk = s.me.rspOk ∧ t.me.rspData = s.me.rspData ∧ t.rspValid = s.rspValid

/-- The port whose turn it is keeps the locals of the timed waits' deadline and flags (10_state.md R33). -/
def OwnWaitLocalsSame (s t : State) : Prop := t.me.tDl = s.me.tDl ∧ t.me.tF = s.me.tF

/-- The port whose turn it is keeps the locals of the ring (10_state.md R33). -/
def OwnRingLocalsSame (s t : State) : Prop := t.me.tW = s.me.tW ∧ t.me.tR = s.me.tR ∧ t.me.tV = s.me.tV

/-- The operation of the port whose turn it is ends with this response: `complete` (30_encoding.md R101). -/
def Completed (s t : State) (ill ok : Bool) (data : Nat) : Prop :=
  t.me.phase = .idle ∧ t.me.rspIll = ill ∧ t.me.rspOk = ok ∧ t.me.rspData = data ∧ t.rspValid = some s.active

/-- The notifier's register is unchanged. -/
def FlagsSame (s t : State) : Prop := t.raisedFlags = s.raisedFlags

/-- The ring's two indices are unchanged. -/
def IndicesSame (s t : State) : Prop := t.writeIndex = s.writeIndex ∧ t.readIndex = s.readIndex

/-- Every slot reads as before, and is written or unwritten as before. -/
def StorageSame (s t : State) : Prop :=
  ∀ i, Memory.read t.storage i = Memory.read s.storage i ∧ t.slot i = s.slot i

/-- What no operation touches: the tick, the parameters, and the model's own fields. -/
def WorldSame (s t : State) : Prop :=
  t.tick = s.tick ∧ t.params = s.params ∧ t.inputs = s.inputs ∧ t.draws = s.draws ∧ t.epoch = s.epoch ∧
    t.active = s.active ∧ t.swap = s.swap

/-- The block's shared state is unchanged (10_state.md R20). -/
def SharedSame (s t : State) : Prop := FlagsSame s t ∧ IndicesSame s t ∧ StorageSame s t

/-- What no micro-step of any operation changes: the other ports, the port's own operand registers, the world. -/
def Elsewhere (s t : State) : Prop := OthersSame s t ∧ OwnOperandsSame s t ∧ WorldSame s t

/-! ## Runs -/

/-- `n` micro-steps of one instruction in a row, no other agent between them. -/
def execTimes (i : Instr) : Nat → State → Out
  | 0, s => .next s
  | n + 1, s =>
    match exec i s with
    | .next t => execTimes i n t
    | .fault r => .fault r
    | .refused r => .refused r

/-- Micro-steps of several ports in the order given, each turn a port, its `swap` and the instruction it has in flight. -/
def turns : List (Nat × Bool × Instr) → State → Out
  | [], s => .next s
  | (p, b, i) :: rest, s =>
    match exec i (s.turn p b) with
    | .next t => turns rest t
    | .fault r => .fault r
    | .refused r => .refused r

/-- How many micro-steps a port still owes at most; only NTF.WAIT and RB.POPT go back (30_encoding.md R105,
42_ringbuffer.md R172). -/
def Phase.rank : Phase → Nat
  | .idle => 0
  | .reservedX1 | .newN1 | .expiredE1 | .resetZ1 | .setS1 | .capA1 => 1
  | .pushP4 | .popC4 | .poptC4 | .clearK1 | .clearK2 | .sizeQ1 | .sizeQ2 => 1
  | .pushP3 | .popC3 | .poptC3 | .clearK | .sizeQ => 2
  | .pushP2 | .popC2 => 3
  | .pushP1 | .popC1 => 4
  | .waitW1 => 3
  | .waitW2 => 2
  | .waitW3 => 1
  | .waitW0 => 4
  | .poptT0 => 6
  | .poptC1 => 5
  | .poptC2 => 4
  | .poptT1 => 3
  | .poptT2 => 1

/-- The two operations that may hold a port (10_state.md R31, 60_exceptions.md R240). -/
def mayHold : Instr → Bool
  | .ntfWait _ _ | .rbPopt _ => true
  | .dlNew _ | .dlExpired | .ntfReset | .ntfSet _ | .rbPush _ | .rbPop | .rbClear | .rbSize | .rbCap => false

/-! ## The abstract queue -/

/-- The number of live elements (10_state.md R29). -/
def State.count (s : State) : Nat := ringSize s.params s.writeIndex s.readIndex

/-- The live elements, oldest first: the slots `read_index .. write_index - 1` modulo `N` (10_state.md R35,
42_ringbuffer.md R185). -/
def State.queue (s : State) : List Elem :=
  (List.range s.count).map fun k => s.slot ((s.readIndex + k) % s.params.slots)

/-! ## Disciplines -/

/-- Which port stands for which role (00_scope.md R10, 70_reset_and_hazards.md R270, R271, R279). -/
structure Roles where
  owner      : Nat
  producer   : Nat
  consumer   : Nat
  interrupts : List Nat
  deriving DecidableEq, Repr

/-- An RB.PUSH is in flight. -/
def Phase.pushing (l : Phase) : Bool := l.opc == some .rbPush

/-- An RB.POP or RB.POPT is in flight. -/
def Phase.popping (l : Phase) : Bool := l.opc == some .rbPop || l.opc == some .rbPopt

/-- An RB.CLEAR is in flight. -/
def Phase.clearing (l : Phase) : Bool := l.opc == some .rbClear

/-- Some port has a push or a pop in flight. -/
def State.ringBusy (s : State) : Bool := s.ports.any fun q => q.phase.pushing || q.phase.popping

/-- Some port has a clear in flight. -/
def State.clearBusy (s : State) : Bool := s.ports.any fun q => q.phase.clearing

/-- The instruction an input issues, with its port, if the port takes it. -/
def issued (s : State) : Input → Option (Nat × Instr)
  | .issue p m => if s.cmdReady p then (decode? m).map fun i => (p, i) else none
  | .tick | .rst | .micro _ _ => none

/-- SPSC discipline (70_reset_and_hazards.md R270). -/
def spscOk (r : Roles) : Nat × Instr → Bool
  | (p, .rbPush _) => p == r.producer
  | (p, .rbPop) => p == r.consumer
  | (p, .rbPopt _) => p == r.consumer
  | _ => true

/-- Clear discipline (70_reset_and_hazards.md R274). -/
def clearOk (s : State) : Nat × Instr → Bool
  | (_, .rbClear) => !s.ringBusy
  | (_, .rbPush _) => !s.clearBusy
  | (_, .rbPop) => !s.clearBusy
  | (_, .rbPopt _) => !s.clearBusy
  | _ => true

/-- Single-waiter discipline (70_reset_and_hazards.md R271). -/
def waiterOk (r : Roles) : Nat × Instr → Bool
  | (p, .ntfWait _ _) => p == r.owner
  | (p, .ntfReset) => p == r.owner
  | _ => true

/-- Half-range rule, the part a command shows (70_reset_and_hazards.md R277). -/
def halfRangeOk : Nat × Instr → Bool
  | (_, .dlNew d) => d == Config.sentinelMax || d.toNat ≤ 2 ^ 31
  | (_, .ntfWait _ d) => d == Config.sentinelMax || d.toNat ≤ 2 ^ 31
  | (_, .rbPopt d) => d == Config.sentinelMax || d.toNat ≤ 2 ^ 31
  | _ => true

/-- DL.NEW before any DL.EXPIRED on the port (70_reset_and_hazards.md R278). -/
def deadlineOk (s : State) : Nat × Instr → Bool
  | (p, .dlExpired) => (s.port p).dlCreated
  | _ => true

/-- Interrupt contexts never block (70_reset_and_hazards.md R279). -/
def interruptOk (r : Roles) : Nat × Instr → Bool
  | (p, .ntfWait _ _) => !r.interrupts.contains p
  | (p, .rbPopt d) => d == 0 || !r.interrupts.contains p
  | _ => true

/-- The next input keeps the ring's two disciplines (70_reset_and_hazards.md R270, R274). -/
def State.ringDisciplined (r : Roles) (s : State) : Bool :=
  match issued s s.nextInput with
  | some e => spscOk r e && clearOk s e
  | none => true

/-- The next input keeps the disciplines of the notifier, the deadline and the interrupt contexts
(70_reset_and_hazards.md R271, R278, R279). -/
def State.waitDisciplined (r : Roles) (s : State) : Bool :=
  match issued s s.nextInput with
  | some e => waiterOk r e && deadlineOk s e && interruptOk r e
  | none => true

/-- What holds of a ring whose disciplines have been kept: the roles (70_reset_and_hazards.md R270, R274), the live
slots written (10_state.md R35), and what each side's loaded values still say (42_ringbuffer.md R185). -/
structure RingKept (r : Roles) (s : State) : Prop where
  wf : s.wf = true
  apart : r.producer ≠ r.consumer
  push_role : ∀ p, (s.port p).phase.pushing = true → p = r.producer
  pop_role : ∀ p, (s.port p).phase.popping = true → p = r.consumer
  clear_alone : s.clearBusy = true → s.ringBusy = false
  read_cleared : ∀ p, (s.port p).phase = .clearK1 → s.readIndex = 0
  write_cleared : ∀ p, (s.port p).phase = .clearK2 → s.writeIndex = 0
  live_written : (∀ p, (s.port p).phase ≠ .clearK1 ∧ (s.port p).phase ≠ .clearK2) →
    ∀ k, k < s.count → Memory.read s.storage ((s.readIndex + k) % s.params.slots) ≠ none
  write_loaded : ∀ p, (s.port p).phase = .pushP2 ∨ (s.port p).phase = .pushP3 ∨ (s.port p).phase = .pushP4 →
    (s.port p).tW = s.writeIndex
  room_found : ∀ p, (s.port p).phase = .pushP3 ∨ (s.port p).phase = .pushP4 →
    ringFull s.params s.writeIndex s.readIndex = false
  element_put : ∀ p, (s.port p).phase = .pushP4 → Memory.read s.storage s.writeIndex = some (s.port p).wdata
  read_loaded : ∀ p, (s.port p).phase = .popC2 ∨ (s.port p).phase = .popC3 ∨ (s.port p).phase = .popC4 ∨
    (s.port p).phase = .poptC2 ∨ (s.port p).phase = .poptC3 ∨ (s.port p).phase = .poptC4 →
    (s.port p).tR = s.readIndex
  element_there : ∀ p, (s.port p).phase = .popC3 ∨ (s.port p).phase = .popC4 ∨
    (s.port p).phase = .poptC3 ∨ (s.port p).phase = .poptC4 → ringEmpty s.writeIndex s.readIndex = false
  element_read : ∀ p, (s.port p).phase = .popC4 ∨ (s.port p).phase = .poptC4 → (s.port p).tV = s.slot s.readIndex

/-- The effect of a step on the abstract queue (the table of 42_ringbuffer.md R185): appended to at P4, taken from at
C4, looked at at P2 and C2, emptied by the end of RB.CLEAR and by reset, and untouched by everything else. Between the
two stores of RB.CLEAR the indices stand for no queue. -/
def QueueEffect (s t : State) : Prop :=
  match s.nextInput with
  | .rst => t.queue = []
  | .tick | .issue _ _ => t.queue = s.queue
  | .micro p _ =>
    match (s.port p).phase with
    | .pushP2 => t.queue = s.queue ∧ ((t.port p).phase = .idle ↔ s.queue.length = s.params.capacity)
    | .pushP4 => t.queue = s.queue ++ [(s.port p).wdata] ∧ (t.port p).phase = .idle ∧ (t.port p).rspOk = true
    | .popC2 => t.queue = s.queue ∧ ((t.port p).phase = .idle ↔ s.queue = [])
    | .poptC2 => t.queue = s.queue ∧ ((t.port p).phase = .poptT1 ↔ s.queue = [])
    | .popC4 | .poptC4 =>
      s.queue = (t.port p).rspData :: t.queue ∧ (t.port p).phase = .idle ∧ (t.port p).rspOk = true
    | .clearK => True
    | .clearK1 | .clearK2 => t.queue = []
    | _ => t.queue = s.queue

/-- The phase of the port whose micro-step comes next, if one does. -/
def State.nextPhase (s : State) : Phase :=
  match s.nextInput with
  | .micro p _ => (s.port p).phase
  | .tick | .rst | .issue _ _ => .idle

/-- The port whose micro-step comes next. -/
def State.nextPort (s : State) : Port :=
  match s.nextInput with
  | .micro p _ => s.port p
  | .tick | .rst | .issue _ _ => Port.reset

/-- The element the coming step appends to the queue: a push takes effect at its P4 (42_ringbuffer.md R185). -/
def State.appended (s : State) : List Elem :=
  match s.nextPhase with
  | .pushP4 => [s.nextPort.wdata]
  | _ => []

/-- The element the coming step takes from the queue: a pop takes effect at its C4 (42_ringbuffer.md R185). -/
def State.taken (s : State) : List Elem :=
  match s.nextPhase with
  | .popC4 | .poptC4 => [s.nextPort.tV]
  | _ => []

/-- The coming step is part of an emptying of the ring: a reset or a micro-step of RB.CLEAR. -/
def State.emptying (s : State) : Bool := s.nextInput == .rst || s.nextPhase.clearing

/-- `n` steps that keep the ring's disciplines and neither reset nor clear the ring. -/
def quietRun (r : Roles) : Nat → State → Prop
  | 0, _ => True
  | n + 1, s =>
    s.ringDisciplined r = true ∧ s.emptying = false ∧
      match step s with
      | .next t => quietRun r n t
      | .fault _ => False
      | .refused _ => False

/-- The elements `n` steps append and take, in order, and the state they end in. -/
def ringHistory : Nat → State → Option (List Elem × List Elem × State)
  | 0, s => some ([], [], s)
  | n + 1, s =>
    match step s with
    | .next t => (ringHistory n t).map fun (ins, outs, u) => (s.appended ++ ins, s.taken ++ outs, u)
    | .fault _ => none
    | .refused _ => none

/-- What holds of the roles of the notifier, the deadline and the interrupt contexts when their disciplines have been
kept (70_reset_and_hazards.md R271, R278, R279). -/
structure RolesKept (r : Roles) (s : State) : Prop where
  waiter : ∀ p, (s.port p).phase.opc = some .ntfWait ∨ (s.port p).phase.opc = some .ntfReset → p = r.owner
  created : ∀ p, (s.port p).phase = .expiredE1 → (s.port p).dlCreated = true
  interrupt : ∀ p, p ∈ r.interrupts → (s.port p).phase.opc ≠ some .ntfWait ∧
    ((s.port p).phase.opc = some .rbPopt → (s.port p).arg0 = 0)

end Sys2Proof.Machine
end

