-- ==== Sys2Proof/Certificates/Slice0/Obligations.lean ====
section
/-! DEFINITION. The statements for the provers. Each docstring names the rule of spec/ it formalises. -/

open Sys2Proof Sys2Proof.Machine

/-! ## Encoding -/

/-- 30_encoding.md R93: the eleven opcode bytes and the operands their formats use. -/
def Obligations.OpcodeBytesDecode : Prop :=
  ∀ (a b : Word) (v : Elem),
    decode ⟨0x10, a, b, v⟩ = .ok (.dlNew a) ∧ decode ⟨0x11, a, b, v⟩ = .ok .dlExpired ∧
    decode ⟨0x20, a, b, v⟩ = .ok .ntfReset ∧ decode ⟨0x21, a, b, v⟩ = .ok (.ntfSet a) ∧
    decode ⟨0x22, a, b, v⟩ = .ok (.ntfWait a b) ∧ decode ⟨0x30, a, b, v⟩ = .ok (.rbPush v) ∧
    decode ⟨0x31, a, b, v⟩ = .ok .rbPop ∧ decode ⟨0x32, a, b, v⟩ = .ok (.rbPopt a) ∧
    decode ⟨0x33, a, b, v⟩ = .ok .rbClear ∧ decode ⟨0x34, a, b, v⟩ = .ok .rbSize ∧
    decode ⟨0x35, a, b, v⟩ = .ok .rbCap

/-- 30_encoding.md R94: exactly the listed bytes are reserved, and they are 245. -/
def Obligations.ReservedBytesRefused : Prop :=
  (∀ m : Cmd, decode m = .error (.reservedOpcode m.op) ↔
    m.op.toNat ≤ 0x0F ∨ (0x12 ≤ m.op.toNat ∧ m.op.toNat ≤ 0x1F) ∨ (0x23 ≤ m.op.toNat ∧ m.op.toNat ≤ 0x2F) ∨
      (0x36 ≤ m.op.toNat ∧ m.op.toNat ≤ 0x3F) ∨ 0x40 ≤ m.op.toNat) ∧
  ((List.range 256).filter fun n => (decode? ⟨BitVec.ofNat 8 n, 0, 0, 0⟩).isNone).length = 245

/-- 30_encoding.md R91, R93: encoding then decoding the canonical command word gives every well-formed instruction
back, at every element width, and a command word of `72 + ELEM_W` bits is its fields. -/
def Obligations.CommandWordRoundTrip : Prop :=
  (∀ (c : Params) (i : Instr), i.wf c = true →
    encodeCW c i < 2 ^ (72 + c.elemW) ∧ decodeCW c (encodeCW c i) = .ok i) ∧
  ∀ (c : Params) (w : Nat), w < 2 ^ (72 + c.elemW) → packCW c (unpackCW c w) = w

/-- The opcode table's own bytes, read by the decoder (log 18 for the operand bits, zero here). -/
def Obligations.TableBytesDecode : Prop :=
  decodeTableWord 8 0x10 = some (.dlNew 0) ∧ decodeTableWord 8 0x22 = some (.ntfWait 0 0) ∧
    decodeTableWord 8 0x30 = some (.rbPush 0) ∧ decodeTableWord 8 0x35 = some .rbCap ∧ decodeTableWord 8 0x36 = none

/-- 30_encoding.md R103: the pseudo-operations are encoded as the operations they stand for. -/
def Obligations.PseudoOperationsExpand : Prop :=
  encode .dlNever = ⟨0x10, 0xFFFFFFFF, 0, 0⟩ ∧ encode .rbPopf = ⟨0x32, 0xFFFFFFFF, 0, 0⟩ ∧
    (∀ f : Word, encode (.ntfPoll f) = ⟨0x22, f, 0, 0⟩ ∧ encode (.ntfWaitf f) = ⟨0x22, f, 0xFFFFFFFF, 0⟩)

/-- 20_memory.md R62: a result keeps its value and fits the response register; where it could not, it is a free value
of that width (log 10). -/
def Obligations.ResultsZeroExtend : Prop :=
  ∀ (c : Params) (v : Nat), zextData c v < 2 ^ c.dataW ∧ (v < 2 ^ c.dataW → zextData c v = v)

/-! ## The deadline evaluator -/

/-- 40_deadline.md R120: `dl_new`, the target also where the deadline is unlimited, and the worked example. That the sum
is reduced modulo 2^32 is an inference the spec marks as its own (from the type of `target_tick`). -/
def Obligations.DlNewAddsModulo : Prop :=
  (∀ now d : Word, (dlNew now d).target.toNat = (now.toNat + d.toNat) % 2 ^ 32 ∧
    ((dlNew now d).unlimited = true ↔ d = 0xFFFFFFFF)) ∧
  (∀ now : Word, (dlNew now 0xFFFFFFFF).target = now - 1) ∧ dlNew 0xFFFFFFF0 0x20 = ⟨0x10, false⟩

/-- 40_deadline.md R121: `dl_expired`, and the worked example. The three equal forms are an inference the spec marks as
its own (from R8), and the two's-complement reading of the cast is its general knowledge (G1). -/
def Obligations.DlExpiredSignedTest : Prop :=
  (∀ (dl : Deadline) (now : Word),
    (dl.unlimited = true → dlExpired dl now = false) ∧
    (dl.unlimited = false →
      (dlExpired dl now = true ↔ 0 ≤ (now - dl.target).toInt) ∧
      (dlExpired dl now = true ↔ (now - dl.target).toNat < 2 ^ 31) ∧
      (dlExpired dl now = true ↔ (now - dl.target).getLsbD 31 = false))) ∧
  dlExpired ⟨0x10, false⟩ 0xFFFFFFFF = false ∧ dlExpired ⟨0x10, false⟩ 0x10 = true

/-- 40_deadline.md R126: the sentinel never expires, and no other duration is unlimited. -/
def Obligations.SentinelNeverExpires : Prop :=
  (∀ now later : Word, (dlNew now 0xFFFFFFFF).unlimited = true ∧ dlExpired (dlNew now 0xFFFFFFFF) later = false) ∧
  ∀ now d : Word, d ≠ 0xFFFFFFFF → (dlNew now d).unlimited = false

/-- 40_deadline.md R129, an inference the spec marks as its own (from R120, R121): a zero duration is expired at its
creation and for the next `2^31 - 1` ticks. -/
def Obligations.ZeroDurationExpiredAtOnce : Prop :=
  ∀ now : Word, dlNew now 0 = ⟨now, false⟩ ∧
    ∀ e : Nat, e < 2 ^ 31 → dlExpired (dlNew now 0) (now + BitVec.ofNat 32 e) = true

/-- 40_deadline.md R123, an inference the spec marks as its own (from R120, R121): what the evaluator answers after `e`
true ticks, row by row, and when it is right throughout. -/
def Obligations.EvaluatorTruthWindow : Prop :=
  ∀ (now d : Word), d ≠ 0xFFFFFFFF → ∀ e : Nat,
    let answer := fun k : Nat => dlExpired (dlNew now d) (now + BitVec.ofNat 32 k)
    (answer e = true ↔ ((e : Int) - (d.toNat : Int)) % 2 ^ 32 < 2 ^ 31) ∧
    (e < d.toNat → d.toNat - e ≤ 2 ^ 31 → answer e = false) ∧
    (e < d.toNat → 2 ^ 31 < d.toNat - e → answer e = true) ∧
    (d.toNat ≤ e → e < d.toNat + 2 ^ 31 → answer e = true) ∧
    (d.toNat + 2 ^ 31 ≤ e → e < d.toNat + 2 ^ 32 → answer e = false) ∧
    (d.toNat + 2 ^ 32 ≤ e → answer e = answer (e - 2 ^ 32)) ∧
    ((∀ k, k ≤ e → (answer k = true ↔ d.toNat ≤ k)) ↔ d.toNat ≤ 2 ^ 31 ∧ e < d.toNat + 2 ^ 31)

/-- 40_deadline.md R124: DL.NEW. -/
def Obligations.DlNewStoresDeadline : Prop :=
  (∀ m : Cmd, m.op = 0x10 → decode m = .ok (.dlNew m.arg0)) ∧
  ∀ (s : State) (d : Word), s.me.phase = .newN1 →
    ∃ t, exec (.dlNew d) s = .next t ∧
      t.me.dl.target.toNat = (s.tick.toNat + d.toNat) % 2 ^ 32 ∧ (t.me.dl.unlimited = true ↔ d = 0xFFFFFFFF) ∧
      t.me.dlCreated = true ∧ t.me.tNow = s.tick ∧ Completed s t false true 0 ∧
      Elsewhere s t ∧ SharedSame s t ∧ OwnWaitLocalsSame s t ∧ OwnRingLocalsSame s t

/-- 40_deadline.md R125: DL.EXPIRED on a port whose Deadline has been created. -/
def Obligations.DlExpiredAnswers : Prop :=
  (∀ m : Cmd, m.op = 0x11 → decode m = .ok .dlExpired) ∧
  ∀ s : State, s.me.phase = .expiredE1 → s.me.dlCreated = true →
    ∃ t, exec .dlExpired s = .next t ∧
      Completed s t false true (if dlExpired s.me.dl s.tick then 1 else 0) ∧ t.me.tNow = s.tick ∧
      Elsewhere s t ∧ SharedSame s t ∧ OwnDeadlineSame s t ∧ OwnWaitLocalsSame s t ∧ OwnRingLocalsSame s t

/-- The model's choice (log 7): DL.EXPIRED before any DL.NEW completes all the same, and answers the test of rule R121
on a free deadline, whatever its value; nothing else differs. -/
def Obligations.DlExpiredUncreatedIsFree : Prop :=
  ∀ s : State, s.me.phase = .expiredE1 → s.me.dlCreated = false →
    ∃ t, exec .dlExpired s = .next t ∧
      Completed s t false true
        (if dlExpired ⟨(Config.freeDeadline s.epoch s.active).1, (Config.freeDeadline s.epoch s.active).2⟩ s.tick
          then 1 else 0) ∧
      t.me.tNow = s.tick ∧ Elsewhere s t ∧ SharedSame s t ∧ OwnDeadlineSame s t ∧ OwnWaitLocalsSame s t ∧
      OwnRingLocalsSame s t

/-- 41_notifier.md R155, an inference the spec marks as its own (from R145, R123): inside the half-range window a timed
wait times out at its deadline test exactly when its `d` ticks have passed, and otherwise yields. 60_exceptions.md R237
refinement 2, with R234: in every fair execution without a reset a timed operation of any duration but the sentinel ends,
if it does not consult its deadline for the first time `2^31` ticks or more after it expired (70_reset_and_hazards.md
R277). -/
def Obligations.TimeoutNeverEarly : Prop :=
  (∀ (s : State) (now d : Word) (e : Nat), s.me.tDl = dlNew now d → d.toNat ≤ 2 ^ 31 → e < d.toNat + 2 ^ 31 →
    s.tick = now + BitVec.ofNat 32 e →
    (∀ f a : Word, s.me.phase = .waitW2 → ∃ t, exec (.ntfWait f a) s = .next t ∧
      (d.toNat ≤ e → Completed s t false false 0) ∧ (e < d.toNat → t.me.phase = .waitW3)) ∧
    (∀ a : Word, s.me.phase = .poptT1 → ∃ t, exec (.rbPopt a) s = .next t ∧
      (d.toNat ≤ e → Completed s t false false 0) ∧ (e < d.toNat → t.me.phase = .poptT2))) ∧
  ∀ (sched : Nat → Input) (run : Nat → State), Execution sched run → Fair sched run → (∀ k, sched k ≠ .rst) →
    ∀ (n p : Nat) (b : Bool) (d : Word), sched n = .micro p b →
      ((run n).port p).phase = .waitW0 ∧ ((run n).port p).arg1 = d ∨
        ((run n).port p).phase = .poptT0 ∧ ((run n).port p).arg0 = d →
      d ≠ 0xFFFFFFFF → ConsultedInTime sched run p n d →
      ∃ m, n < m ∧ ((run m).port p).phase = .idle

/-! ## The notifier -/

/-- 41_notifier.md R143: NTF.RESET. -/
def Obligations.NtfResetClears : Prop :=
  (∀ m : Cmd, m.op = 0x20 → decode m = .ok .ntfReset) ∧
  ∀ s : State, s.me.phase = .resetZ1 →
    ∃ t, exec .ntfReset s = .next t ∧ t.raisedFlags = 0 ∧ Completed s t false true 0 ∧
      Elsewhere s t ∧ IndicesSame s t ∧ StorageSame s t ∧ OwnDeadlineSame s t ∧ t.me.tNow = s.me.tNow ∧
      OwnWaitLocalsSame s t ∧ OwnRingLocalsSame s t

/-- 41_notifier.md R144: NTF.SET; a flag is raised afterwards if it was before or is named by the operand. -/
def Obligations.NtfSetRaises : Prop :=
  (∀ m : Cmd, m.op = 0x21 → decode m = .ok (.ntfSet m.arg0)) ∧
  ∀ (s : State) (f : Word), s.me.phase = .setS1 →
    ∃ t, exec (.ntfSet f) s = .next t ∧
      (∀ i, i < 32 → t.raisedFlags.getLsbD i = (s.raisedFlags.getLsbD i || f.getLsbD i)) ∧
      Completed s t false true 0 ∧
      Elsewhere s t ∧ IndicesSame s t ∧ StorageSame s t ∧ OwnDeadlineSame s t ∧ t.me.tNow = s.me.tNow ∧
      OwnWaitLocalsSame s t ∧ OwnRingLocalsSame s t

/-- 41_notifier.md R145: the four micro-steps of NTF.WAIT. -/
def Obligations.NtfWaitMicroSteps : Prop :=
  (∀ m : Cmd, m.op = 0x22 → decode m = .ok (.ntfWait m.arg0 m.arg1)) ∧
  ∀ (s : State) (f d : Word),
    (s.me.phase = .waitW0 → ∃ t, exec (.ntfWait f d) s = .next t ∧
      t.me.tNow = s.tick ∧ t.me.tDl = dlNew s.tick d ∧ t.me.phase = .waitW1 ∧ t.me.tF = s.me.tF ∧
      Elsewhere s t ∧ SharedSame s t ∧ OwnDeadlineSame s t ∧ OwnResponseSame s t ∧ OwnRingLocalsSame s t) ∧
    (s.me.phase = .waitW1 → ∃ t, exec (.ntfWait f d) s = .next t ∧
      t.me.tF = s.raisedFlags ∧ t.me.tDl = s.me.tDl ∧ t.me.tNow = s.me.tNow ∧
      (s.raisedFlags &&& f ≠ 0 → Completed s t false true (s.raisedFlags &&& f).toNat) ∧
      (s.raisedFlags &&& f = 0 → t.me.phase = .waitW2 ∧ OwnResponseSame s t) ∧
      Elsewhere s t ∧ SharedSame s t ∧ OwnDeadlineSame s t ∧ OwnRingLocalsSame s t) ∧
    (s.me.phase = .waitW2 → ∃ t, exec (.ntfWait f d) s = .next t ∧
      t.me.tNow = s.tick ∧ OwnWaitLocalsSame s t ∧
      (dlExpired s.me.tDl s.tick = true → Completed s t false false 0) ∧
      (dlExpired s.me.tDl s.tick = false → t.me.phase = .waitW3 ∧ OwnResponseSame s t) ∧
      Elsewhere s t ∧ SharedSame s t ∧ OwnDeadlineSame s t ∧ OwnRingLocalsSame s t) ∧
    (s.me.phase = .waitW3 → ∃ t, exec (.ntfWait f d) s = .next t ∧
      t.me.phase = .waitW1 ∧ t.me.tNow = s.me.tNow ∧ OwnWaitLocalsSame s t ∧
      Elsewhere s t ∧ SharedSame s t ∧ OwnDeadlineSame s t ∧ OwnResponseSame s t ∧ OwnRingLocalsSame s t)

/-- 60_exceptions.md R239: the yield changes nothing but the port's phase. -/
def Obligations.YieldMovesPhaseOnly : Prop :=
  ∀ s : State,
    (∀ f d : Word, s.me.phase = .waitW3 →
      exec (.ntfWait f d) s = .next (s.setPort s.active { s.me with phase := .waitW1 })) ∧
    (∀ d : Word, s.me.phase = .poptT2 →
      exec (.rbPopt d) s = .next (s.setPort s.active { s.me with phase := .poptC1 }))

/-- 41_notifier.md R146: no micro-step of NTF.WAIT changes a flag, whether it returns flags or times out. -/
def Obligations.WaitNeverClears : Prop :=
  ∀ (s : State) (f d : Word), s.me.phase.opc = some .ntfWait →
    ∃ t, exec (.ntfWait f d) s = .next t ∧ t.raisedFlags = s.raisedFlags

/-- 41_notifier.md R147, an inference the spec marks as its own (from R145, R146): a wanted flag at W1 is returned
however late the deadline; at W2 an expired deadline is reported whatever flags are raised by then, and they stay raised. -/
def Obligations.MatchBeatsTimeout : Prop :=
  ∀ (s : State) (f d : Word), dlExpired s.me.tDl s.tick = true → s.raisedFlags &&& f ≠ 0 →
    (s.me.phase = .waitW1 → ∃ t, exec (.ntfWait f d) s = .next t ∧
      Completed s t false true (s.raisedFlags &&& f).toNat ∧ FlagsSame s t) ∧
    (s.me.phase = .waitW2 → ∃ t, exec (.ntfWait f d) s = .next t ∧
      Completed s t false false 0 ∧ FlagsSame s t)

/-- 41_notifier.md R148: with timeout 0 and no tick in between, NTF.WAIT is a poll: two micro-steps if a wanted flag is
raised, three if none is, and no yield. -/
def Obligations.ZeroTimeoutPolls : Prop :=
  ∀ (s : State) (f : Word), s.me.phase = .waitW0 →
    (s.raisedFlags &&& f ≠ 0 → ∃ t, execTimes (.ntfWait f 0) 2 s = .next t ∧
      Completed s t false true (s.raisedFlags &&& f).toNat ∧ SharedSame s t ∧ OwnDeadlineSame s t) ∧
    (s.raisedFlags &&& f = 0 → ∃ t, execTimes (.ntfWait f 0) 3 s = .next t ∧
      Completed s t false false 0 ∧ SharedSame s t ∧ OwnDeadlineSame s t)

/-- 41_notifier.md R149, an inference the spec marks as its own, with R150 and 60_exceptions.md R241: a wait for the empty
set with an unlimited deadline stays in its loop whatever step any agent takes; only a reset ends it. -/
def Obligations.EmptyUnlimitedWaitHangs : Prop :=
  ∀ (s : State) (p : Nat), s.wf = true →
    (s.port p).phase = .waitW1 ∨ (s.port p).phase = .waitW2 ∨ (s.port p).phase = .waitW3 →
    (s.port p).arg0 = 0 → (s.port p).tDl.unlimited = true → s.nextInput ≠ .rst →
    ∃ t, step s = .next t ∧
      ((t.port p).phase = .waitW1 ∨ (t.port p).phase = .waitW2 ∨ (t.port p).phase = .waitW3) ∧
      (t.port p).arg0 = 0 ∧ (t.port p).tDl.unlimited = true

/-- 20_memory.md R72, an inference the spec marks as its own (from R144): two sets in flight on two ports give the same
flags in either order. -/
def Obligations.SetsCommute : Prop :=
  ∀ (s : State) (p q : Nat) (f g : Word), p ≠ q → (s.port p).phase = .setS1 → (s.port q).phase = .setS1 →
    ∃ t u t' u', exec (.ntfSet f) (s.turn p false) = .next t ∧ exec (.ntfSet g) (t.turn q false) = .next u ∧
      exec (.ntfSet g) (s.turn q false) = .next t' ∧ exec (.ntfSet f) (t'.turn p false) = .next u' ∧
      u.raisedFlags = s.raisedFlags ||| f ||| g ∧ u'.raisedFlags = u.raisedFlags

/-- 41_notifier.md R153, an inference the spec marks as its own (from R143, R144, R66): a reset racing with a set, in both
orders. -/
def Obligations.ResetSetRace : Prop :=
  ∀ (s : State) (p q : Nat) (f : Word), p ≠ q → (s.port p).phase = .resetZ1 → (s.port q).phase = .setS1 →
    (∃ t u, exec (.ntfSet f) (s.turn q false) = .next t ∧ exec .ntfReset (t.turn p false) = .next u ∧
      u.raisedFlags = 0) ∧
    (∃ t u, exec .ntfReset (s.turn p false) = .next t ∧ exec (.ntfSet f) (t.turn q false) = .next u ∧
      u.raisedFlags = f)

/-- 60_exceptions.md R240: a held port goes round its loop and changes no shared state: a wait with no wanted flag, a
timed pop on an empty ring, the deadline of either not expired. -/
def Obligations.HeldPortGoesRound : Prop :=
  ∀ s : State, dlExpired s.me.tDl s.tick = false →
    (∀ f d : Word, s.me.phase = .waitW1 → s.raisedFlags &&& f = 0 →
      ∃ t, execTimes (.ntfWait f d) 3 s = .next t ∧ t.me.phase = .waitW1 ∧ t.me.tDl = s.me.tDl ∧
        Elsewhere s t ∧ SharedSame s t ∧ OwnDeadlineSame s t ∧ OwnResponseSame s t) ∧
    (∀ d : Word, s.me.phase = .poptC1 → s.writeIndex = s.readIndex → s.readIndex < s.params.slots →
      ∃ t, execTimes (.rbPopt d) 4 s = .next t ∧ t.me.phase = .poptC1 ∧ t.me.tDl = s.me.tDl ∧
        Elsewhere s t ∧ SharedSame s t ∧ OwnDeadlineSame s t ∧ OwnResponseSame s t)

/-! ## The ring -/

/-- 42_ringbuffer.md R173: the next index. -/
def Obligations.NextIndexWraps : Prop :=
  ∀ (c : Params) (i : Nat), i < c.slots →
    nextIdx c i < c.slots ∧ nextIdx c i = if i = c.slots - 1 then 0 else i + 1

/-- 10_state.md R29: empty and full as the rule defines them, and size by the formula the rule marks as its own inference. -/
def Obligations.SizeCountsElements : Prop :=
  ∀ (c : Params) (w r : Nat), w < c.slots → r < c.slots →
    (ringEmpty w r = true ↔ w = r) ∧ (ringFull c w r = true ↔ (w + 1) % c.slots = r) ∧
    ringSize c w r = (w + c.slots - r) % c.slots ∧ ringSize c w r ≤ c.capacity ∧
    (ringSize c w r = 0 ↔ ringEmpty w r = true) ∧ (ringSize c w r = c.capacity ↔ ringFull c w r = true) ∧
    (ringFull c w r = false → ringSize c (nextIdx c w) r = ringSize c w r + 1) ∧
    (ringEmpty w r = false → ringSize c w (nextIdx c r) + 1 = ringSize c w r)

/-- 42_ringbuffer.md R176: the four micro-steps of RB.PUSH. -/
def Obligations.PushMicroSteps : Prop :=
  (∀ m : Cmd, m.op = 0x30 → decode m = .ok (.rbPush m.wdata)) ∧
  ∀ (s : State) (v : Elem), v < 2 ^ s.params.elemW →
    (s.me.phase = .pushP1 → s.writeIndex < s.params.slots → ∃ t, exec (.rbPush v) s = .next t ∧
      t.me.tW = s.writeIndex ∧ t.me.phase = .pushP2 ∧ t.me.tR = s.me.tR ∧ t.me.tV = s.me.tV ∧
      t.me.tNow = s.me.tNow ∧ OwnWaitLocalsSame s t ∧ Elsewhere s t ∧ SharedSame s t ∧ OwnDeadlineSame s t ∧
      OwnResponseSame s t) ∧
    (s.me.phase = .pushP2 → s.readIndex < s.params.slots → ∃ t, exec (.rbPush v) s = .next t ∧
      t.me.tR = s.readIndex ∧ t.me.tW = s.me.tW ∧ t.me.tV = s.me.tV ∧
      ((s.me.tW + 1) % s.params.slots = s.readIndex → Completed s t false false 0) ∧
      ((s.me.tW + 1) % s.params.slots ≠ s.readIndex → t.me.phase = .pushP3 ∧ OwnResponseSame s t) ∧
      t.me.tNow = s.me.tNow ∧ OwnWaitLocalsSame s t ∧ Elsewhere s t ∧ SharedSame s t ∧ OwnDeadlineSame s t) ∧
    (s.me.phase = .pushP3 → s.me.tW < s.params.slots → ∃ t, exec (.rbPush v) s = .next t ∧
      t.slot s.me.tW = v ∧ (∀ i, i ≠ s.me.tW → t.slot i = s.slot i ∧
        Memory.read t.storage i = Memory.read s.storage i) ∧
      t.me.phase = .pushP4 ∧ FlagsSame s t ∧ IndicesSame s t ∧
      t.me.tNow = s.me.tNow ∧ OwnWaitLocalsSame s t ∧ OwnRingLocalsSame s t ∧ Elsewhere s t ∧ OwnDeadlineSame s t ∧
      OwnResponseSame s t) ∧
    (s.me.phase = .pushP4 → ∃ t, exec (.rbPush v) s = .next t ∧
      t.writeIndex = (s.me.tW + 1) % s.params.slots ∧ t.readIndex = s.readIndex ∧ Completed s t false true 0 ∧
      FlagsSame s t ∧ StorageSame s t ∧
      t.me.tNow = s.me.tNow ∧ OwnWaitLocalsSame s t ∧ OwnRingLocalsSame s t ∧ Elsewhere s t ∧ OwnDeadlineSame s t)

/-- 42_ringbuffer.md R176, its contract: a push that nobody interrupts appends its value where there is room. -/
def Obligations.PushAppends : Prop :=
  ∀ (s : State) (v : Elem), s.wf = true → v < 2 ^ s.params.elemW → s.me.phase = .pushP1 →
    s.queue.length < s.params.capacity →
    ∃ t, execTimes (.rbPush v) 4 s = .next t ∧ Completed s t false true 0 ∧ t.queue = s.queue ++ [v] ∧
      t.readIndex = s.readIndex ∧ FlagsSame s t ∧ (∀ i, i ≠ s.writeIndex → t.slot i = s.slot i)

/-- 42_ringbuffer.md R183: a push on a full ring fails and changes nothing shared. -/
def Obligations.PushOnFullFails : Prop :=
  ∀ (s : State) (v : Elem), s.wf = true → s.me.phase = .pushP1 → s.queue.length = s.params.capacity →
    ∃ t, execTimes (.rbPush v) 2 s = .next t ∧ Completed s t false false 0 ∧ SharedSame s t ∧ t.queue = s.queue

/-- 42_ringbuffer.md R177: the four micro-steps of RB.POP. -/
def Obligations.PopMicroSteps : Prop :=
  (∀ m : Cmd, m.op = 0x31 → decode m = .ok .rbPop) ∧
  ∀ s : State,
    (s.me.phase = .popC1 → s.readIndex < s.params.slots → ∃ t, exec .rbPop s = .next t ∧
      t.me.tR = s.readIndex ∧ t.me.phase = .popC2 ∧ t.me.tW = s.me.tW ∧ t.me.tV = s.me.tV ∧
      t.me.tNow = s.me.tNow ∧ OwnWaitLocalsSame s t ∧ Elsewhere s t ∧ SharedSame s t ∧ OwnDeadlineSame s t ∧
      OwnResponseSame s t) ∧
    (s.me.phase = .popC2 → s.writeIndex < s.params.slots → ∃ t, exec .rbPop s = .next t ∧
      t.me.tW = s.writeIndex ∧ t.me.tR = s.me.tR ∧ t.me.tV = s.me.tV ∧
      (s.me.tR = s.writeIndex → Completed s t false false 0) ∧
      (s.me.tR ≠ s.writeIndex → t.me.phase = .popC3 ∧ OwnResponseSame s t) ∧
      t.me.tNow = s.me.tNow ∧ OwnWaitLocalsSame s t ∧ Elsewhere s t ∧ SharedSame s t ∧ OwnDeadlineSame s t) ∧
    (s.me.phase = .popC3 → s.me.tR < s.params.slots → ∃ t, exec .rbPop s = .next t ∧
      t.me.tV = s.slot s.me.tR ∧ t.me.phase = .popC4 ∧ t.me.tW = s.me.tW ∧ t.me.tR = s.me.tR ∧
      t.me.tNow = s.me.tNow ∧ OwnWaitLocalsSame s t ∧ Elsewhere s t ∧ SharedSame s t ∧ OwnDeadlineSame s t ∧
      OwnResponseSame s t) ∧
    (s.me.phase = .popC4 → s.me.tV < 2 ^ s.params.elemW → ∃ t, exec .rbPop s = .next t ∧
      t.readIndex = (s.me.tR + 1) % s.params.slots ∧ t.writeIndex = s.writeIndex ∧
      Completed s t false true s.me.tV ∧ FlagsSame s t ∧ StorageSame s t ∧
      t.me.tNow = s.me.tNow ∧ OwnWaitLocalsSame s t ∧ OwnRingLocalsSame s t ∧ Elsewhere s t ∧ OwnDeadlineSame s t)

/-- 42_ringbuffer.md R177, its contract: a pop that nobody interrupts takes the oldest element. -/
def Obligations.PopTakesOldest : Prop :=
  ∀ (s : State) (v : Elem) (rest : List Elem), s.wf = true → s.me.phase = .popC1 → s.queue = v :: rest →
    ∃ t, execTimes .rbPop 4 s = .next t ∧ Completed s t false true v ∧ t.queue = rest ∧
      t.writeIndex = s.writeIndex ∧ FlagsSame s t ∧ StorageSame s t

/-- 42_ringbuffer.md R184: a pop on an empty ring answers "empty" after C1 and C2. -/
def Obligations.PopOnEmptyAnswers : Prop :=
  ∀ s : State, s.wf = true → s.me.phase = .popC1 → s.queue = [] →
    ∃ t, execTimes .rbPop 2 s = .next t ∧ Completed s t false false 0 ∧ SharedSame s t

/-- 42_ringbuffer.md R178: the seven micro-steps of RB.POPT. -/
def Obligations.PoptMicroSteps : Prop :=
  (∀ m : Cmd, m.op = 0x32 → decode m = .ok (.rbPopt m.arg0)) ∧
  ∀ (s : State) (d : Word),
    (s.me.phase = .poptT0 → ∃ t, exec (.rbPopt d) s = .next t ∧
      t.me.tNow = s.tick ∧ t.me.tDl = dlNew s.tick d ∧ t.me.phase = .poptC1 ∧ t.me.tF = s.me.tF ∧
      Elsewhere s t ∧ SharedSame s t ∧ OwnDeadlineSame s t ∧ OwnResponseSame s t ∧ OwnRingLocalsSame s t) ∧
    (s.me.phase = .poptC1 → s.readIndex < s.params.slots → ∃ t, exec (.rbPopt d) s = .next t ∧
      t.me.tR = s.readIndex ∧ t.me.phase = .poptC2 ∧ t.me.tW = s.me.tW ∧ t.me.tV = s.me.tV ∧
      t.me.tNow = s.me.tNow ∧ OwnWaitLocalsSame s t ∧ Elsewhere s t ∧ SharedSame s t ∧ OwnDeadlineSame s t ∧
      OwnResponseSame s t) ∧
    (s.me.phase = .poptC2 → s.writeIndex < s.params.slots → ∃ t, exec (.rbPopt d) s = .next t ∧
      t.me.tW = s.writeIndex ∧ t.me.tR = s.me.tR ∧ t.me.tV = s.me.tV ∧
      (s.me.tR = s.writeIndex → t.me.phase = .poptT1) ∧ (s.me.tR ≠ s.writeIndex → t.me.phase = .poptC3) ∧
      t.me.tNow = s.me.tNow ∧ OwnWaitLocalsSame s t ∧ Elsewhere s t ∧ SharedSame s t ∧ OwnDeadlineSame s t ∧
      OwnResponseSame s t) ∧
    (s.me.phase = .poptC3 → s.me.tR < s.params.slots → ∃ t, exec (.rbPopt d) s = .next t ∧
      t.me.tV = s.slot s.me.tR ∧ t.me.phase = .poptC4 ∧ t.me.tW = s.me.tW ∧ t.me.tR = s.me.tR ∧
      t.me.tNow = s.me.tNow ∧ OwnWaitLocalsSame s t ∧ Elsewhere s t ∧ SharedSame s t ∧ OwnDeadlineSame s t ∧
      OwnResponseSame s t) ∧
    (s.me.phase = .poptC4 → s.me.tV < 2 ^ s.params.elemW → ∃ t, exec (.rbPopt d) s = .next t ∧
      t.readIndex = (s.me.tR + 1) % s.params.slots ∧ t.writeIndex = s.writeIndex ∧
      Completed s t false true s.me.tV ∧ FlagsSame s t ∧ StorageSame s t ∧
      t.me.tNow = s.me.tNow ∧ OwnWaitLocalsSame s t ∧ OwnRingLocalsSame s t ∧ Elsewhere s t ∧
      OwnDeadlineSame s t) ∧
    (s.me.phase = .poptT1 → ∃ t, exec (.rbPopt d) s = .next t ∧
      t.me.tNow = s.tick ∧ OwnWaitLocalsSame s t ∧
      (dlExpired s.me.tDl s.tick = true → Completed s t false false 0) ∧
      (dlExpired s.me.tDl s.tick = false → t.me.phase = .poptT2 ∧ OwnResponseSame s t) ∧
      Elsewhere s t ∧ SharedSame s t ∧ OwnDeadlineSame s t ∧ OwnRingLocalsSame s t) ∧
    (s.me.phase = .poptT2 → ∃ t, exec (.rbPopt d) s = .next t ∧
      t.me.phase = .poptC1 ∧ t.me.tNow = s.me.tNow ∧ OwnWaitLocalsSame s t ∧
      Elsewhere s t ∧ SharedSame s t ∧ OwnDeadlineSame s t ∧ OwnResponseSame s t ∧ OwnRingLocalsSame s t)

/-- 42_ringbuffer.md R187, an inference the spec marks as its own (from R178): RB.POPT 0 and RB.POP, each uninterrupted
from the same state, give the same response and the same shared state. -/
def Obligations.PoptZeroIsPop : Prop :=
  ∀ s : State, s.wf = true → s.me.phase = .poptT0 →
    let s' := s.goto .popC1
    (s.queue = [] → ∃ t t', execTimes (.rbPopt 0) 4 s = .next t ∧ execTimes .rbPop 2 s' = .next t' ∧
      Completed s t false false 0 ∧ Completed s' t' false false 0 ∧ SharedSame s t ∧ SharedSame s t') ∧
    (∀ v rest, s.queue = v :: rest →
      ∃ t t', execTimes (.rbPopt 0) 5 s = .next t ∧ execTimes .rbPop 4 s' = .next t' ∧
        Completed s t false true v ∧ Completed s' t' false true v ∧ SharedSame t t' ∧
        t.queue = rest ∧ t.writeIndex = s.writeIndex ∧ FlagsSame s t ∧ StorageSame s t)

/-- 42_ringbuffer.md R179: the two micro-steps of RB.CLEAR in either order, and the end state of both orders. -/
def Obligations.ClearEitherOrder : Prop :=
  (∀ m : Cmd, m.op = 0x33 → decode m = .ok .rbClear) ∧
  ∀ s : State,
    (s.me.phase = .clearK → ∃ t, exec .rbClear s = .next t ∧
      (s.swap = false → t.writeIndex = 0 ∧ t.readIndex = s.readIndex ∧ t.me.phase = .clearK2) ∧
      (s.swap = true → t.readIndex = 0 ∧ t.writeIndex = s.writeIndex ∧ t.me.phase = .clearK1) ∧
      FlagsSame s t ∧ StorageSame s t ∧ Elsewhere s t ∧ OwnDeadlineSame s t ∧ OwnResponseSame s t ∧
      t.me.tNow = s.me.tNow ∧ OwnWaitLocalsSame s t ∧ OwnRingLocalsSame s t) ∧
    (s.me.phase = .clearK1 → ∃ t, exec .rbClear s = .next t ∧
      t.writeIndex = 0 ∧ t.readIndex = s.readIndex ∧ Completed s t false true 0 ∧
      FlagsSame s t ∧ StorageSame s t ∧ Elsewhere s t ∧ OwnDeadlineSame s t ∧
      t.me.tNow = s.me.tNow ∧ OwnWaitLocalsSame s t ∧ OwnRingLocalsSame s t) ∧
    (s.me.phase = .clearK2 → ∃ t, exec .rbClear s = .next t ∧
      t.readIndex = 0 ∧ t.writeIndex = s.writeIndex ∧ Completed s t false true 0 ∧
      FlagsSame s t ∧ StorageSame s t ∧ Elsewhere s t ∧ OwnDeadlineSame s t ∧
      t.me.tNow = s.me.tNow ∧ OwnWaitLocalsSame s t ∧ OwnRingLocalsSame s t) ∧
    (s.me.phase = .clearK → ∃ t, execTimes .rbClear 2 s = .next t ∧ t.writeIndex = 0 ∧ t.readIndex = 0 ∧
      t.queue = [] ∧ Completed s t false true 0 ∧ FlagsSame s t ∧ StorageSame s t)

/-- 42_ringbuffer.md R180: the two micro-steps of RB.SIZE in either order; uninterrupted, both orders answer the number
of elements held. -/
def Obligations.SizeEitherOrder : Prop :=
  (∀ m : Cmd, m.op = 0x34 → decode m = .ok .rbSize) ∧
  ∀ s : State, s.writeIndex < s.params.slots → s.readIndex < s.params.slots →
    (s.me.phase = .sizeQ → ∃ t, exec .rbSize s = .next t ∧
      (s.swap = false → t.me.tW = s.writeIndex ∧ t.me.tR = s.me.tR ∧ t.me.phase = .sizeQ2) ∧
      (s.swap = true → t.me.tR = s.readIndex ∧ t.me.tW = s.me.tW ∧ t.me.phase = .sizeQ1) ∧
      t.me.tV = s.me.tV ∧ t.me.tNow = s.me.tNow ∧ OwnWaitLocalsSame s t ∧ Elsewhere s t ∧ SharedSame s t ∧
      OwnDeadlineSame s t ∧ OwnResponseSame s t) ∧
    (s.me.phase = .sizeQ1 → ∃ t, exec .rbSize s = .next t ∧ t.me.tW = s.writeIndex ∧ t.me.tR = s.me.tR ∧
      Completed s t false true
        (zextData s.params (((s.writeIndex : Int) - (s.me.tR : Int)) % (s.params.slots : Int)).toNat) ∧
      t.me.tV = s.me.tV ∧ t.me.tNow = s.me.tNow ∧ OwnWaitLocalsSame s t ∧ Elsewhere s t ∧ SharedSame s t ∧
      OwnDeadlineSame s t) ∧
    (s.me.phase = .sizeQ2 → ∃ t, exec .rbSize s = .next t ∧ t.me.tR = s.readIndex ∧ t.me.tW = s.me.tW ∧
      Completed s t false true
        (zextData s.params (((s.me.tW : Int) - (s.readIndex : Int)) % (s.params.slots : Int)).toNat) ∧
      t.me.tV = s.me.tV ∧ t.me.tNow = s.me.tNow ∧ OwnWaitLocalsSame s t ∧ Elsewhere s t ∧ SharedSame s t ∧
      OwnDeadlineSame s t) ∧
    (s.me.phase = .sizeQ → ∃ t, execTimes .rbSize 2 s = .next t ∧ SharedSame s t ∧
      Completed s t false true (zextData s.params s.queue.length))

/-- 42_ringbuffer.md R181: RB.CAP answers `CAPACITY`, that is `N - 1`. -/
def Obligations.CapAnswersCapacity : Prop :=
  (∀ m : Cmd, m.op = 0x35 → decode m = .ok .rbCap) ∧
  ∀ s : State, s.me.phase = .capA1 →
    ∃ t, exec .rbCap s = .next t ∧ Completed s t false true (zextData s.params s.params.capacity) ∧
      (s.params.capacity < 2 ^ s.params.dataW → t.me.rspData = s.params.slots - 1) ∧
      Elsewhere s t ∧ SharedSame s t ∧ OwnDeadlineSame s t ∧ t.me.tNow = s.me.tNow ∧
      OwnWaitLocalsSame s t ∧ OwnRingLocalsSame s t

/-! ## Steps of the machine -/

/-- A step runs the decoded instruction (30_encoding.md R100): a turn of a busy port is `exec` of what the port's
latched command decodes to, on the state that has taken the input up and made it that port's turn. -/
def Obligations.StepRunsDecoded : Prop :=
  ∀ (s : State) (p : Nat) (b : Bool) (i : Instr), s.nextInput = .micro p b → p < s.params.nports →
    (s.port p).phase ≠ .idle → (s.port p).phase ≠ .reservedX1 → decode (s.port p).cmd = .ok i →
    step s = exec i (s.begin.turn p b)

/-- 30_encoding.md R95: a reserved opcode issues as X1, and X1 answers `ill = 1` and touches nothing but the port. -/
def Obligations.ReservedOpcodeAnswersIll : Prop :=
  (∀ op : Byte, Opc.ofByte op = none → firstPhase op = .reservedX1) ∧
  ∀ (s : State) (p : Nat) (b : Bool), s.nextInput = .micro p b → p < s.params.nports →
    (s.port p).phase = .reservedX1 →
    ∃ t, step s = .next t ∧
      t.port p = { s.port p with rspIll := true, rspOk := false, rspData := 0, phase := .idle } ∧
      t.rspValid = some p ∧ t.tick = s.tick ∧ SharedSame s t ∧ t.params = s.params ∧
      ∀ q, q ≠ p → t.port q = s.port q

/-- 30_encoding.md R99: the issue. Any idle port latches any command and stands at the operation's first label; nothing
shared and no other port changes. -/
def Obligations.IssueLatchesCommand : Prop :=
  ∀ (s : State) (p : Nat) (m : Cmd), s.nextInput = .issue p m → p < s.params.nports →
    s.ports.length = s.params.nports → m.wdata < 2 ^ s.params.elemW → (s.port p).phase = .idle →
    ∃ t, step s = .next t ∧ t.tick = s.tick ∧ SharedSame s t ∧ (∀ q, q ≠ p → t.port q = s.port q) ∧
      (t.port p = { s.port p with op := m.op, arg0 := m.arg0, arg1 := m.arg1, wdata := m.wdata,
                                   phase := firstPhase m.op } ∧
        (m.op = 0x10 → (t.port p).phase = .newN1) ∧ (m.op = 0x11 → (t.port p).phase = .expiredE1) ∧
        (m.op = 0x20 → (t.port p).phase = .resetZ1) ∧ (m.op = 0x21 → (t.port p).phase = .setS1) ∧
        (m.op = 0x22 → (t.port p).phase = .waitW0) ∧ (m.op = 0x30 → (t.port p).phase = .pushP1) ∧
        (m.op = 0x31 → (t.port p).phase = .popC1) ∧ (m.op = 0x32 → (t.port p).phase = .poptT0) ∧
        (m.op = 0x33 → (t.port p).phase = .clearK) ∧ (m.op = 0x34 → (t.port p).phase = .sizeQ) ∧
        (m.op = 0x35 → (t.port p).phase = .capA1) ∧ (decode? m = none → (t.port p).phase = .reservedX1))

/-- The model's choice (log 3, log 13, log 14): a command offered on a busy port and a turn of an idle one change nothing
but that the `rsp_valid` pulse is over (log 14), and an input for a port the block does not have stops the machine by
name. -/
def Obligations.DisabledInputsChangeNothing : Prop :=
  ∀ (s : State) (p : Nat),
    (p < s.params.nports →
      (∀ m, s.nextInput = .issue p m → (s.port p).phase ≠ .idle → step s = .next s.begin) ∧
      (∀ b, s.nextInput = .micro p b → (s.port p).phase = .idle → step s = .next s.begin)) ∧
    (s.params.nports ≤ p →
      (∀ m, s.nextInput = .issue p m → step s = .fault .noSuchPort) ∧
      (∀ b, s.nextInput = .micro p b → step s = .fault .noSuchPort)) ∧
    s.begin.tick = s.tick ∧ SharedSame s s.begin ∧ s.begin.ports = s.ports ∧ s.begin.params = s.params ∧
    s.begin.rspValid = none

/-- 10_state.md R22: the step of the TickSource, and that nothing else moves the tick. -/
def Obligations.OnlyTheTickSourceMovesTick : Prop :=
  (∀ s : State, s.nextInput = .tick →
    ∃ t, step s = .next t ∧ t.tick.toNat = (s.tick.toNat + 1) % 2 ^ 32 ∧ t.ports = s.ports ∧ SharedSame s t) ∧
  ∀ s t : State, s.nextInput ≠ .tick → step s = .next t → t.tick = s.tick

/-- 10_state.md R20, R21, R23, R25 to R28, R37: who writes what, over all steps of the machine; the parameters never
change. -/
def Obligations.RegisterWriters : Prop :=
  ∀ s t : State, step s = .next t →
    (t.raisedFlags ≠ s.raisedFlags → s.nextInput = .rst ∨ s.nextPhase = .setS1 ∨ s.nextPhase = .resetZ1) ∧
    (t.writeIndex ≠ s.writeIndex →
      s.nextInput = .rst ∨ s.nextPhase = .pushP4 ∨ s.nextPhase = .clearK ∨ s.nextPhase = .clearK1) ∧
    (t.readIndex ≠ s.readIndex →
      s.nextInput = .rst ∨ s.nextPhase = .popC4 ∨ s.nextPhase = .poptC4 ∨ s.nextPhase = .clearK ∨
        s.nextPhase = .clearK2) ∧
    (∀ i, Memory.read t.storage i ≠ Memory.read s.storage i →
      s.nextInput = .rst ∨ (s.nextPhase = .pushP3 ∧ i = s.nextPort.tW)) ∧
    (∀ p, (t.port p).dl ≠ (s.port p).dl →
      s.nextInput = .rst ∨ ((s.port p).phase = .newN1 ∧ ∃ b, s.nextInput = .micro p b)) ∧
    t.params = s.params

/-- 60_exceptions.md R238: a step for one port leaves every other port's registers as they were. -/
def Obligations.OtherPortsUntouched : Prop :=
  ∀ s t : State, step s = .next t → s.nextInput ≠ .rst →
    ∀ q, (∀ m, s.nextInput ≠ .issue q m) → (∀ b, s.nextInput ≠ .micro q b) → t.port q = s.port q

/-- 70_reset_and_hazards.md R260: the reset input, at any moment, and that nothing else ends an operation without a
response. The contents the rule leaves unspecified are not stated; the Deadline of every port counts as not created. The
model's choice (log 14): after the reset no port pulses `rsp_valid`, not even one whose operation completed just before. -/
def Obligations.HardwareResetAbandons : Prop :=
  (∀ (s t : State) (p : Nat), step s = .next t → (s.port p).phase ≠ .idle → (t.port p).phase = .idle →
    s.nextInput = .rst ∨ t.rspValid = some p) ∧
  ∀ s : State, s.nextInput = .rst →
    ∃ t, step s = .next t ∧ t.tick = s.tick ∧ t.params = s.params ∧ t.raisedFlags = 0 ∧ t.writeIndex = 0 ∧
      t.readIndex = 0 ∧ t.queue = [] ∧ t.rspValid = none ∧
      ∀ p, (t.port p).phase = .idle ∧ (t.port p).dlCreated = false

/-- 10_state.md R40: the values the rule gives for reset, for every block and every tick. The model's choice: the reset
state of the machine is that of the vectors' parameters (log 1) at tick 0 (log 5). -/
def Obligations.ResetStateValues : Prop :=
  (∀ (c : Params) (tick : Word),
    let s := State.resetAt c tick
    s.tick = tick ∧ s.params = c ∧ s.raisedFlags = 0 ∧ s.writeIndex = 0 ∧ s.readIndex = 0 ∧ s.queue = [] ∧
      s.ports.length = c.nports ∧ (∀ i, Memory.read s.storage i = none) ∧
      ∀ p, (s.port p).phase = .idle ∧ (s.port p).dlCreated = false) ∧
  State.reset = State.resetAt ⟨32, 4, 2⟩ 0

/-- Reset is well formed, and keeps every discipline's invariant, for every block, tick and choice of roles. -/
def Obligations.ResetMeetsInvariants : Prop :=
  ∀ (c : Params) (tick : Word) (r : Roles), c.ok = true → r.producer ≠ r.consumer →
    (State.resetAt c tick).wf = true ∧ RingKept r (State.resetAt c tick) ∧ RolesKept r (State.resetAt c tick)

/-- 10_state.md R35 item 1, an inference the spec marks as its own, with 20_memory.md R63 and 60_exceptions.md R220: from a
well-formed state every step, whatever agent takes it, answers a next state, and that state is well formed: no index
leaves `0 .. N-1`, no register outgrows its width, nothing faults and nothing is refused. -/
def Obligations.WellFormedStepsForever : Prop :=
  ∀ s : State, s.wf = true → ∃ t, step s = .next t ∧ t.wf = true

/-- 20_memory.md R74, its last sentence an inference the spec marks as its own, with 42_ringbuffer.md R172 and
30_encoding.md R105: in a well-formed state every micro-step of every operation is enabled; it ends the operation or goes
on inside it; and an operation other than NTF.WAIT and RB.POPT has at most four and always comes nearer its end. -/
def Obligations.MicroStepsEnabledAndBounded : Prop :=
  ∀ (s : State) (i : Instr), s.wf = true → s.me.phase.opc = some i.opc →
    ∃ t, exec i s = .next t ∧ (t.me.phase = .idle ∨ t.me.phase.opc = some i.opc) ∧
      (mayHold i = false → s.me.phase.rank ≤ 4 ∧ t.me.phase.rank < s.me.phase.rank)

/-- The model's choice (log 12), beside 30_encoding.md R99: an instruction with no micro-step to perform on the port whose
turn it is is refused by name. -/
def Obligations.NotInFlightRefused : Prop :=
  ∀ (s : State) (i : Instr), s.me.phase.opc ≠ some i.opc → exec i s = .refused .notInFlight

/-- 20_memory.md R63, what it advises a model to do (log 11): an index outside the storage refuses the state rather than
give the access a meaning. -/
def Obligations.IndexOutsideStorageRefused : Prop :=
  ∀ s : State,
    (∀ v, s.me.phase = .pushP3 → s.params.slots ≤ s.me.tW → exec (.rbPush v) s = .refused .indexOutOfRange) ∧
    (s.me.phase = .popC3 → s.params.slots ≤ s.me.tR → exec .rbPop s = .refused .indexOutOfRange) ∧
    (∀ d, s.me.phase = .poptC3 → s.params.slots ≤ s.me.tR → exec (.rbPopt d) s = .refused .indexOutOfRange)

/-- 60_exceptions.md R221, R227: the unsuccessful outcomes of the defined operations are those of NTF.WAIT, RB.PUSH, RB.POP
and RB.POPT, all with the one response, and none of them changes any shared state. -/
def Obligations.FailuresChangeNothingShared : Prop :=
  ∀ (i : Instr) (s t : State), exec i s = .next t → t.me.phase = .idle → t.me.rspOk = false →
    (i.opc = .ntfWait ∧ s.me.phase = .waitW2 ∨ i.opc = .rbPush ∧ s.me.phase = .pushP2 ∨
      i.opc = .rbPop ∧ s.me.phase = .popC2 ∨ i.opc = .rbPopt ∧ s.me.phase = .poptT1) ∧
    Completed s t false false 0 ∧ SharedSame s t

/-! ## Disciplines -/

/-- 42_ringbuffer.md R185 and 10_state.md R35, inferences the spec marks as its own: a step that keeps the ring's
disciplines keeps the ring's invariant, and every operation takes effect on the abstract queue at one micro-step and at
no other. -/
def Obligations.RingLinearises : Prop :=
  ∀ (r : Roles) (s : State), RingKept r s → s.ringDisciplined r = true →
    ∃ t, step s = .next t ∧ RingKept r t ∧ QueueEffect s t

/-- 42_ringbuffer.md R182, its second sentence an inference the spec marks as its own: over any run that keeps the
disciplines, with every interleaving, the elements taken are those appended, in the same order, none lost and none
doubled; the rest is still in the queue. -/
def Obligations.FifoOverRuns : Prop :=
  ∀ (r : Roles) (n : Nat) (s : State), RingKept r s → quietRun r n s →
    ∃ ins outs t, ringHistory n s = some (ins, outs, t) ∧ s.queue ++ ins = outs ++ t.queue

/-- 42_ringbuffer.md R189, an inference the spec marks as its own (from R180, R185): an RB.SIZE of the producer or of the
consumer answers the number of elements held at its load of the other side's index, in either order of Q1 and Q2. While
the producer has one in flight the write index stands still, and while the consumer has one the read index does. Where
the other side's index is loaded last, the value loaded first stays the index until that load completes with the number
held then. Where it is loaded first, that load fixes the number, and every step keeps it or completes with it. -/
def Obligations.SizeExactForOwners : Prop :=
  ∀ (r : Roles) (s t : State), RingKept r s → s.ringDisciplined r = true → s.emptying = false → step s = .next t →
    let p := s.port r.producer
    let p' := t.port r.producer
    let c := s.port r.consumer
    let c' := t.port r.consumer
    (p.phase.opc = some .rbSize → t.writeIndex = s.writeIndex) ∧
    (c.phase.opc = some .rbSize → t.readIndex = s.readIndex) ∧
    (s.nextInput = .micro r.producer false → p.phase = .sizeQ → p'.phase = .sizeQ2 ∧ p'.tW = t.writeIndex) ∧
    (p.phase = .sizeQ2 → p.tW = s.writeIndex →
      p'.phase = .sizeQ2 ∧ p'.tW = t.writeIndex ∨
        p'.phase = .idle ∧ p'.rspOk = true ∧ p'.rspData = zextData s.params s.queue.length) ∧
    (∀ b, s.nextInput = .micro r.producer b → p.phase = .sizeQ2 → p.tW = s.writeIndex →
      p'.phase = .idle ∧ p'.rspData = zextData s.params s.queue.length) ∧
    (s.nextInput = .micro r.producer true → p.phase = .sizeQ →
      p'.phase = .sizeQ1 ∧ ringSize t.params t.writeIndex p'.tR = s.queue.length) ∧
    (p.phase = .sizeQ1 →
      p'.phase = .sizeQ1 ∧ ringSize t.params t.writeIndex p'.tR = ringSize s.params s.writeIndex p.tR ∨
        p'.phase = .idle ∧ p'.rspOk = true ∧
          p'.rspData = zextData s.params (ringSize s.params s.writeIndex p.tR)) ∧
    (s.nextInput = .micro r.consumer true → c.phase = .sizeQ → c'.phase = .sizeQ1 ∧ c'.tR = t.readIndex) ∧
    (c.phase = .sizeQ1 → c.tR = s.readIndex →
      c'.phase = .sizeQ1 ∧ c'.tR = t.readIndex ∨
        c'.phase = .idle ∧ c'.rspOk = true ∧ c'.rspData = zextData s.params s.queue.length) ∧
    (∀ b, s.nextInput = .micro r.consumer b → c.phase = .sizeQ1 → c.tR = s.readIndex →
      c'.phase = .idle ∧ c'.rspData = zextData s.params s.queue.length) ∧
    (s.nextInput = .micro r.consumer false → c.phase = .sizeQ →
      c'.phase = .sizeQ2 ∧ ringSize t.params c'.tW t.readIndex = s.queue.length) ∧
    (c.phase = .sizeQ2 →
      c'.phase = .sizeQ2 ∧ ringSize t.params c'.tW t.readIndex = ringSize s.params c.tW s.readIndex ∨
        c'.phase = .idle ∧ c'.rspOk = true ∧
          c'.rspData = zextData s.params (ringSize s.params c.tW s.readIndex))

/-- 70_reset_and_hazards.md R271, R278, R279: while software keeps these disciplines, only the owner waits and resets,
no DL.EXPIRED runs without a Deadline, and no interrupt context holds its port. -/
def Obligations.RolesKeptByStep : Prop :=
  ∀ (r : Roles) (s t : State), s.wf = true → RolesKept r s → s.waitDisciplined r = true → step s = .next t →
    RolesKept r t

/-- 42_ringbuffer.md R191, its mechanism an inference the spec marks as its own (from R176, R179): a clear that runs
between a push's P3 and its P4 is undone or spoilt. Whichever order its two stores take, the push then stores the index
after the slot it wrote. Where that index has not wrapped, the queue is every slot below the written one, cleared
elements among them (none if the push wrote slot 0), and then the value; where the push wrote slot `N-1` the index is 0,
the queue is empty and the value is lost though the push reports success. -/
def Obligations.ClearRaceResurrects : Prop :=
  ∀ (s : State) (p q : Nat) (v : Elem) (b : Bool), s.wf = true → v < 2 ^ s.params.elemW → p ≠ q →
    (s.port p).phase = .pushP1 → (s.port q).phase = .clearK → s.queue.length < s.params.capacity →
    let push : Nat × Bool × Instr := (p, false, .rbPush v)
    let clear : Nat × Bool × Instr := (q, b, .rbClear)
    ∃ t, turns [push, push, push, clear, clear, push] s = .next t ∧
      t.writeIndex = (s.writeIndex + 1) % s.params.slots ∧ t.readIndex = 0 ∧
      t.queue = (List.range ((s.writeIndex + 1) % s.params.slots)).map
        (fun k => if k = s.writeIndex then v else s.slot k) ∧
      (t.port p).rspOk = true ∧ (t.port q).rspOk = true

/-- 42_ringbuffer.md R190, an inference the spec marks as its own (from R176): two pushes in lock step write the same slot
and the same index; both report success and only the later element is held. -/
def Obligations.TwoProducersLoseElement : Prop :=
  ∀ (s : State) (p q : Nat) (v w : Elem), s.wf = true → v < 2 ^ s.params.elemW → w < 2 ^ s.params.elemW → p ≠ q →
    (s.port p).phase = .pushP1 → (s.port q).phase = .pushP1 → s.queue.length < s.params.capacity →
    let one : Nat × Bool × Instr := (p, false, .rbPush v)
    let two : Nat × Bool × Instr := (q, false, .rbPush w)
    ∃ t, turns [one, two, one, two, one, two, one, two] s = .next t ∧ t.queue = s.queue ++ [w] ∧
      (t.port p).rspOk = true ∧ (t.port q).rspOk = true ∧ (t.port p).phase = .idle ∧ (t.port q).phase = .idle
end

