-- ==== Sys2Proof/Laws/State.lean ====
section
/-! SUPPORT. What each update of the state leaves in each field, one lemma for each pair, so that no later proof unfolds
a record update. -/

namespace Sys2Proof.Machine.State

@[simp] theorem setPort_tick (s : State) (p : Nat) (q : Port) : (s.setPort p q).tick = s.tick := (rfl)
@[simp] theorem setPort_raisedFlags (s : State) (p : Nat) (q : Port) : (s.setPort p q).raisedFlags = s.raisedFlags := (rfl)
@[simp] theorem setPort_writeIndex (s : State) (p : Nat) (q : Port) : (s.setPort p q).writeIndex = s.writeIndex := (rfl)
@[simp] theorem setPort_readIndex (s : State) (p : Nat) (q : Port) : (s.setPort p q).readIndex = s.readIndex := (rfl)
@[simp] theorem setPort_storage (s : State) (p : Nat) (q : Port) : (s.setPort p q).storage = s.storage := (rfl)
@[simp] theorem setPort_ports (s : State) (p : Nat) (q : Port) : (s.setPort p q).ports = s.ports.set p q := (rfl)
@[simp] theorem setPort_rspValid (s : State) (p : Nat) (q : Port) : (s.setPort p q).rspValid = s.rspValid := (rfl)
@[simp] theorem setPort_params (s : State) (p : Nat) (q : Port) : (s.setPort p q).params = s.params := (rfl)
@[simp] theorem setPort_inputs (s : State) (p : Nat) (q : Port) : (s.setPort p q).inputs = s.inputs := (rfl)
@[simp] theorem setPort_draws (s : State) (p : Nat) (q : Port) : (s.setPort p q).draws = s.draws := (rfl)
@[simp] theorem setPort_epoch (s : State) (p : Nat) (q : Port) : (s.setPort p q).epoch = s.epoch := (rfl)
@[simp] theorem setPort_active (s : State) (p : Nat) (q : Port) : (s.setPort p q).active = s.active := (rfl)
@[simp] theorem setPort_swap (s : State) (p : Nat) (q : Port) : (s.setPort p q).swap = s.swap := (rfl)
@[simp] theorem setPort_slot (s : State) (p : Nat) (q : Port) (k : Nat) : (s.setPort p q).slot k = s.slot k := (rfl)

@[simp] theorem updMe_tick (s : State) (f : Port → Port) : (s.updMe f).tick = s.tick := (rfl)
@[simp] theorem updMe_raisedFlags (s : State) (f : Port → Port) : (s.updMe f).raisedFlags = s.raisedFlags := (rfl)
@[simp] theorem updMe_writeIndex (s : State) (f : Port → Port) : (s.updMe f).writeIndex = s.writeIndex := (rfl)
@[simp] theorem updMe_readIndex (s : State) (f : Port → Port) : (s.updMe f).readIndex = s.readIndex := (rfl)
@[simp] theorem updMe_storage (s : State) (f : Port → Port) : (s.updMe f).storage = s.storage := (rfl)
@[simp] theorem updMe_ports (s : State) (f : Port → Port) : (s.updMe f).ports = s.ports.set s.active (f s.me) := (rfl)
@[simp] theorem updMe_rspValid (s : State) (f : Port → Port) : (s.updMe f).rspValid = s.rspValid := (rfl)
@[simp] theorem updMe_params (s : State) (f : Port → Port) : (s.updMe f).params = s.params := (rfl)
@[simp] theorem updMe_inputs (s : State) (f : Port → Port) : (s.updMe f).inputs = s.inputs := (rfl)
@[simp] theorem updMe_draws (s : State) (f : Port → Port) : (s.updMe f).draws = s.draws := (rfl)
@[simp] theorem updMe_epoch (s : State) (f : Port → Port) : (s.updMe f).epoch = s.epoch := (rfl)
@[simp] theorem updMe_active (s : State) (f : Port → Port) : (s.updMe f).active = s.active := (rfl)
@[simp] theorem updMe_swap (s : State) (f : Port → Port) : (s.updMe f).swap = s.swap := (rfl)
@[simp] theorem updMe_slot (s : State) (f : Port → Port) (k : Nat) : (s.updMe f).slot k = s.slot k := (rfl)

@[simp] theorem goto_tick (s : State) (l : Phase) : (s.goto l).tick = s.tick := (rfl)
@[simp] theorem goto_raisedFlags (s : State) (l : Phase) : (s.goto l).raisedFlags = s.raisedFlags := (rfl)
@[simp] theorem goto_writeIndex (s : State) (l : Phase) : (s.goto l).writeIndex = s.writeIndex := (rfl)
@[simp] theorem goto_readIndex (s : State) (l : Phase) : (s.goto l).readIndex = s.readIndex := (rfl)
@[simp] theorem goto_storage (s : State) (l : Phase) : (s.goto l).storage = s.storage := (rfl)
@[simp] theorem goto_rspValid (s : State) (l : Phase) : (s.goto l).rspValid = s.rspValid := (rfl)
@[simp] theorem goto_params (s : State) (l : Phase) : (s.goto l).params = s.params := (rfl)
@[simp] theorem goto_inputs (s : State) (l : Phase) : (s.goto l).inputs = s.inputs := (rfl)
@[simp] theorem goto_draws (s : State) (l : Phase) : (s.goto l).draws = s.draws := (rfl)
@[simp] theorem goto_epoch (s : State) (l : Phase) : (s.goto l).epoch = s.epoch := (rfl)
@[simp] theorem goto_active (s : State) (l : Phase) : (s.goto l).active = s.active := (rfl)
@[simp] theorem goto_swap (s : State) (l : Phase) : (s.goto l).swap = s.swap := (rfl)
@[simp] theorem goto_slot (s : State) (l : Phase) (k : Nat) : (s.goto l).slot k = s.slot k := (rfl)

@[simp] theorem complete_tick (s : State) (ill ok : Bool) (d : Nat) : (s.complete ill ok d).tick = s.tick := (rfl)
@[simp] theorem complete_raisedFlags (s : State) (ill ok : Bool) (d : Nat) : (s.complete ill ok d).raisedFlags = s.raisedFlags := (rfl)
@[simp] theorem complete_writeIndex (s : State) (ill ok : Bool) (d : Nat) : (s.complete ill ok d).writeIndex = s.writeIndex := (rfl)
@[simp] theorem complete_readIndex (s : State) (ill ok : Bool) (d : Nat) : (s.complete ill ok d).readIndex = s.readIndex := (rfl)
@[simp] theorem complete_storage (s : State) (ill ok : Bool) (d : Nat) : (s.complete ill ok d).storage = s.storage := (rfl)
@[simp] theorem complete_rspValid (s : State) (ill ok : Bool) (d : Nat) : (s.complete ill ok d).rspValid = some s.active := (rfl)
@[simp] theorem complete_params (s : State) (ill ok : Bool) (d : Nat) : (s.complete ill ok d).params = s.params := (rfl)
@[simp] theorem complete_inputs (s : State) (ill ok : Bool) (d : Nat) : (s.complete ill ok d).inputs = s.inputs := (rfl)
@[simp] theorem complete_draws (s : State) (ill ok : Bool) (d : Nat) : (s.complete ill ok d).draws = s.draws := (rfl)
@[simp] theorem complete_epoch (s : State) (ill ok : Bool) (d : Nat) : (s.complete ill ok d).epoch = s.epoch := (rfl)
@[simp] theorem complete_active (s : State) (ill ok : Bool) (d : Nat) : (s.complete ill ok d).active = s.active := (rfl)
@[simp] theorem complete_swap (s : State) (ill ok : Bool) (d : Nat) : (s.complete ill ok d).swap = s.swap := (rfl)
@[simp] theorem complete_slot (s : State) (ill ok : Bool) (d : Nat) (k : Nat) : (s.complete ill ok d).slot k = s.slot k := (rfl)

@[simp] theorem storeFlags_tick (s : State) (v : Word) : (s.storeFlags v).tick = s.tick := (rfl)
@[simp] theorem storeFlags_raisedFlags (s : State) (v : Word) : (s.storeFlags v).raisedFlags = v := (rfl)
@[simp] theorem storeFlags_writeIndex (s : State) (v : Word) : (s.storeFlags v).writeIndex = s.writeIndex := (rfl)
@[simp] theorem storeFlags_readIndex (s : State) (v : Word) : (s.storeFlags v).readIndex = s.readIndex := (rfl)
@[simp] theorem storeFlags_storage (s : State) (v : Word) : (s.storeFlags v).storage = s.storage := (rfl)
@[simp] theorem storeFlags_ports (s : State) (v : Word) : (s.storeFlags v).ports = s.ports := (rfl)
@[simp] theorem storeFlags_rspValid (s : State) (v : Word) : (s.storeFlags v).rspValid = s.rspValid := (rfl)
@[simp] theorem storeFlags_params (s : State) (v : Word) : (s.storeFlags v).params = s.params := (rfl)
@[simp] theorem storeFlags_inputs (s : State) (v : Word) : (s.storeFlags v).inputs = s.inputs := (rfl)
@[simp] theorem storeFlags_draws (s : State) (v : Word) : (s.storeFlags v).draws = s.draws := (rfl)
@[simp] theorem storeFlags_epoch (s : State) (v : Word) : (s.storeFlags v).epoch = s.epoch := (rfl)
@[simp] theorem storeFlags_active (s : State) (v : Word) : (s.storeFlags v).active = s.active := (rfl)
@[simp] theorem storeFlags_swap (s : State) (v : Word) : (s.storeFlags v).swap = s.swap := (rfl)
@[simp] theorem storeFlags_port (s : State) (v : Word) (k : Nat) : (s.storeFlags v).port k = s.port k := (rfl)
@[simp] theorem storeFlags_me (s : State) (v : Word) : (s.storeFlags v).me = s.me := (rfl)
@[simp] theorem storeFlags_slot (s : State) (v : Word) (k : Nat) : (s.storeFlags v).slot k = s.slot k := (rfl)

@[simp] theorem fetchOrFlags_tick (s : State) (m : Word) : (s.fetchOrFlags m).tick = s.tick := (rfl)
@[simp] theorem fetchOrFlags_raisedFlags (s : State) (m : Word) : (s.fetchOrFlags m).raisedFlags = raiseFlags s.raisedFlags m := (rfl)
@[simp] theorem fetchOrFlags_writeIndex (s : State) (m : Word) : (s.fetchOrFlags m).writeIndex = s.writeIndex := (rfl)
@[simp] theorem fetchOrFlags_readIndex (s : State) (m : Word) : (s.fetchOrFlags m).readIndex = s.readIndex := (rfl)
@[simp] theorem fetchOrFlags_storage (s : State) (m : Word) : (s.fetchOrFlags m).storage = s.storage := (rfl)
@[simp] theorem fetchOrFlags_ports (s : State) (m : Word) : (s.fetchOrFlags m).ports = s.ports := (rfl)
@[simp] theorem fetchOrFlags_rspValid (s : State) (m : Word) : (s.fetchOrFlags m).rspValid = s.rspValid := (rfl)
@[simp] theorem fetchOrFlags_params (s : State) (m : Word) : (s.fetchOrFlags m).params = s.params := (rfl)
@[simp] theorem fetchOrFlags_inputs (s : State) (m : Word) : (s.fetchOrFlags m).inputs = s.inputs := (rfl)
@[simp] theorem fetchOrFlags_draws (s : State) (m : Word) : (s.fetchOrFlags m).draws = s.draws := (rfl)
@[simp] theorem fetchOrFlags_epoch (s : State) (m : Word) : (s.fetchOrFlags m).epoch = s.epoch := (rfl)
@[simp] theorem fetchOrFlags_active (s : State) (m : Word) : (s.fetchOrFlags m).active = s.active := (rfl)
@[simp] theorem fetchOrFlags_swap (s : State) (m : Word) : (s.fetchOrFlags m).swap = s.swap := (rfl)
@[simp] theorem fetchOrFlags_port (s : State) (m : Word) (k : Nat) : (s.fetchOrFlags m).port k = s.port k := (rfl)
@[simp] theorem fetchOrFlags_me (s : State) (m : Word) : (s.fetchOrFlags m).me = s.me := (rfl)
@[simp] theorem fetchOrFlags_slot (s : State) (m : Word) (k : Nat) : (s.fetchOrFlags m).slot k = s.slot k := (rfl)

@[simp] theorem storeWriteIndex_tick (s : State) (v : Nat) : (s.storeWriteIndex v).tick = s.tick := (rfl)
@[simp] theorem storeWriteIndex_raisedFlags (s : State) (v : Nat) : (s.storeWriteIndex v).raisedFlags = s.raisedFlags := (rfl)
@[simp] theorem storeWriteIndex_writeIndex (s : State) (v : Nat) : (s.storeWriteIndex v).writeIndex = v := (rfl)
@[simp] theorem storeWriteIndex_readIndex (s : State) (v : Nat) : (s.storeWriteIndex v).readIndex = s.readIndex := (rfl)
@[simp] theorem storeWriteIndex_storage (s : State) (v : Nat) : (s.storeWriteIndex v).storage = s.storage := (rfl)
@[simp] theorem storeWriteIndex_ports (s : State) (v : Nat) : (s.storeWriteIndex v).ports = s.ports := (rfl)
@[simp] theorem storeWriteIndex_rspValid (s : State) (v : Nat) : (s.storeWriteIndex v).rspValid = s.rspValid := (rfl)
@[simp] theorem storeWriteIndex_params (s : State) (v : Nat) : (s.storeWriteIndex v).params = s.params := (rfl)
@[simp] theorem storeWriteIndex_inputs (s : State) (v : Nat) : (s.storeWriteIndex v).inputs = s.inputs := (rfl)
@[simp] theorem storeWriteIndex_draws (s : State) (v : Nat) : (s.storeWriteIndex v).draws = s.draws := (rfl)
@[simp] theorem storeWriteIndex_epoch (s : State) (v : Nat) : (s.storeWriteIndex v).epoch = s.epoch := (rfl)
@[simp] theorem storeWriteIndex_active (s : State) (v : Nat) : (s.storeWriteIndex v).active = s.active := (rfl)
@[simp] theorem storeWriteIndex_swap (s : State) (v : Nat) : (s.storeWriteIndex v).swap = s.swap := (rfl)
@[simp] theorem storeWriteIndex_port (s : State) (v : Nat) (k : Nat) : (s.storeWriteIndex v).port k = s.port k := (rfl)
@[simp] theorem storeWriteIndex_me (s : State) (v : Nat) : (s.storeWriteIndex v).me = s.me := (rfl)
@[simp] theorem storeWriteIndex_slot (s : State) (v : Nat) (k : Nat) : (s.storeWriteIndex v).slot k = s.slot k := (rfl)

@[simp] theorem storeReadIndex_tick (s : State) (v : Nat) : (s.storeReadIndex v).tick = s.tick := (rfl)
@[simp] theorem storeReadIndex_raisedFlags (s : State) (v : Nat) : (s.storeReadIndex v).raisedFlags = s.raisedFlags := (rfl)
@[simp] theorem storeReadIndex_writeIndex (s : State) (v : Nat) : (s.storeReadIndex v).writeIndex = s.writeIndex := (rfl)
@[simp] theorem storeReadIndex_readIndex (s : State) (v : Nat) : (s.storeReadIndex v).readIndex = v := (rfl)
@[simp] theorem storeReadIndex_storage (s : State) (v : Nat) : (s.storeReadIndex v).storage = s.storage := (rfl)
@[simp] theorem storeReadIndex_ports (s : State) (v : Nat) : (s.storeReadIndex v).ports = s.ports := (rfl)
@[simp] theorem storeReadIndex_rspValid (s : State) (v : Nat) : (s.storeReadIndex v).rspValid = s.rspValid := (rfl)
@[simp] theorem storeReadIndex_params (s : State) (v : Nat) : (s.storeReadIndex v).params = s.params := (rfl)
@[simp] theorem storeReadIndex_inputs (s : State) (v : Nat) : (s.storeReadIndex v).inputs = s.inputs := (rfl)
@[simp] theorem storeReadIndex_draws (s : State) (v : Nat) : (s.storeReadIndex v).draws = s.draws := (rfl)
@[simp] theorem storeReadIndex_epoch (s : State) (v : Nat) : (s.storeReadIndex v).epoch = s.epoch := (rfl)
@[simp] theorem storeReadIndex_active (s : State) (v : Nat) : (s.storeReadIndex v).active = s.active := (rfl)
@[simp] theorem storeReadIndex_swap (s : State) (v : Nat) : (s.storeReadIndex v).swap = s.swap := (rfl)
@[simp] theorem storeReadIndex_port (s : State) (v : Nat) (k : Nat) : (s.storeReadIndex v).port k = s.port k := (rfl)
@[simp] theorem storeReadIndex_me (s : State) (v : Nat) : (s.storeReadIndex v).me = s.me := (rfl)
@[simp] theorem storeReadIndex_slot (s : State) (v : Nat) (k : Nat) : (s.storeReadIndex v).slot k = s.slot k := (rfl)

@[simp] theorem storeSlot_tick (s : State) (i : Nat) (v : Elem) : (s.storeSlot i v).tick = s.tick := (rfl)
@[simp] theorem storeSlot_raisedFlags (s : State) (i : Nat) (v : Elem) : (s.storeSlot i v).raisedFlags = s.raisedFlags := (rfl)
@[simp] theorem storeSlot_writeIndex (s : State) (i : Nat) (v : Elem) : (s.storeSlot i v).writeIndex = s.writeIndex := (rfl)
@[simp] theorem storeSlot_readIndex (s : State) (i : Nat) (v : Elem) : (s.storeSlot i v).readIndex = s.readIndex := (rfl)
@[simp] theorem storeSlot_ports (s : State) (i : Nat) (v : Elem) : (s.storeSlot i v).ports = s.ports := (rfl)
@[simp] theorem storeSlot_rspValid (s : State) (i : Nat) (v : Elem) : (s.storeSlot i v).rspValid = s.rspValid := (rfl)
@[simp] theorem storeSlot_params (s : State) (i : Nat) (v : Elem) : (s.storeSlot i v).params = s.params := (rfl)
@[simp] theorem storeSlot_inputs (s : State) (i : Nat) (v : Elem) : (s.storeSlot i v).inputs = s.inputs := (rfl)
@[simp] theorem storeSlot_draws (s : State) (i : Nat) (v : Elem) : (s.storeSlot i v).draws = s.draws := (rfl)
@[simp] theorem storeSlot_epoch (s : State) (i : Nat) (v : Elem) : (s.storeSlot i v).epoch = s.epoch := (rfl)
@[simp] theorem storeSlot_active (s : State) (i : Nat) (v : Elem) : (s.storeSlot i v).active = s.active := (rfl)
@[simp] theorem storeSlot_swap (s : State) (i : Nat) (v : Elem) : (s.storeSlot i v).swap = s.swap := (rfl)
@[simp] theorem storeSlot_storage (s : State) (i : Nat) (v : Elem) :
    (s.storeSlot i v).storage = Memory.write s.storage i (truncElem s.params v) := (rfl)
@[simp] theorem storeSlot_port (s : State) (i : Nat) (v : Elem) (k : Nat) :
    (s.storeSlot i v).port k = s.port k := (rfl)
@[simp] theorem storeSlot_me (s : State) (i : Nat) (v : Elem) : (s.storeSlot i v).me = s.me := (rfl)

@[simp] theorem tickStep_tick (s : State) : (s.tickStep).tick = s.tick + 1 := (rfl)
@[simp] theorem tickStep_raisedFlags (s : State) : (s.tickStep).raisedFlags = s.raisedFlags := (rfl)
@[simp] theorem tickStep_writeIndex (s : State) : (s.tickStep).writeIndex = s.writeIndex := (rfl)
@[simp] theorem tickStep_readIndex (s : State) : (s.tickStep).readIndex = s.readIndex := (rfl)
@[simp] theorem tickStep_storage (s : State) : (s.tickStep).storage = s.storage := (rfl)
@[simp] theorem tickStep_ports (s : State) : (s.tickStep).ports = s.ports := (rfl)
@[simp] theorem tickStep_rspValid (s : State) : (s.tickStep).rspValid = s.rspValid := (rfl)
@[simp] theorem tickStep_params (s : State) : (s.tickStep).params = s.params := (rfl)
@[simp] theorem tickStep_inputs (s : State) : (s.tickStep).inputs = s.inputs := (rfl)
@[simp] theorem tickStep_draws (s : State) : (s.tickStep).draws = s.draws := (rfl)
@[simp] theorem tickStep_epoch (s : State) : (s.tickStep).epoch = s.epoch := (rfl)
@[simp] theorem tickStep_active (s : State) : (s.tickStep).active = s.active := (rfl)
@[simp] theorem tickStep_swap (s : State) : (s.tickStep).swap = s.swap := (rfl)
@[simp] theorem tickStep_port (s : State) (k : Nat) : (s.tickStep).port k = s.port k := (rfl)
@[simp] theorem tickStep_me (s : State) : (s.tickStep).me = s.me := (rfl)
@[simp] theorem tickStep_slot (s : State) (k : Nat) : (s.tickStep).slot k = s.slot k := (rfl)

@[simp] theorem turn_tick (s : State) (p : Nat) (b : Bool) : (s.turn p b).tick = s.tick := (rfl)
@[simp] theorem turn_raisedFlags (s : State) (p : Nat) (b : Bool) : (s.turn p b).raisedFlags = s.raisedFlags := (rfl)
@[simp] theorem turn_writeIndex (s : State) (p : Nat) (b : Bool) : (s.turn p b).writeIndex = s.writeIndex := (rfl)
@[simp] theorem turn_readIndex (s : State) (p : Nat) (b : Bool) : (s.turn p b).readIndex = s.readIndex := (rfl)
@[simp] theorem turn_storage (s : State) (p : Nat) (b : Bool) : (s.turn p b).storage = s.storage := (rfl)
@[simp] theorem turn_ports (s : State) (p : Nat) (b : Bool) : (s.turn p b).ports = s.ports := (rfl)
@[simp] theorem turn_rspValid (s : State) (p : Nat) (b : Bool) : (s.turn p b).rspValid = s.rspValid := (rfl)
@[simp] theorem turn_params (s : State) (p : Nat) (b : Bool) : (s.turn p b).params = s.params := (rfl)
@[simp] theorem turn_inputs (s : State) (p : Nat) (b : Bool) : (s.turn p b).inputs = s.inputs := (rfl)
@[simp] theorem turn_draws (s : State) (p : Nat) (b : Bool) : (s.turn p b).draws = s.draws := (rfl)
@[simp] theorem turn_epoch (s : State) (p : Nat) (b : Bool) : (s.turn p b).epoch = s.epoch := (rfl)
@[simp] theorem turn_active (s : State) (p : Nat) (b : Bool) : (s.turn p b).active = p := (rfl)
@[simp] theorem turn_swap (s : State) (p : Nat) (b : Bool) : (s.turn p b).swap = b := (rfl)
@[simp] theorem turn_port (s : State) (p : Nat) (b : Bool) (k : Nat) : (s.turn p b).port k = s.port k := (rfl)
@[simp] theorem turn_me (s : State) (p : Nat) (b : Bool) : (s.turn p b).me = s.port p := (rfl)
@[simp] theorem turn_slot (s : State) (p : Nat) (b : Bool) (k : Nat) : (s.turn p b).slot k = s.slot k := (rfl)

@[simp] theorem begin_tick (s : State) : s.begin.tick = s.tick := by unfold State.begin; split <;> rfl
@[simp] theorem begin_raisedFlags (s : State) : s.begin.raisedFlags = s.raisedFlags := by unfold State.begin; split <;> rfl
@[simp] theorem begin_writeIndex (s : State) : s.begin.writeIndex = s.writeIndex := by unfold State.begin; split <;> rfl
@[simp] theorem begin_readIndex (s : State) : s.begin.readIndex = s.readIndex := by unfold State.begin; split <;> rfl
@[simp] theorem begin_storage (s : State) : s.begin.storage = s.storage := by unfold State.begin; split <;> rfl
@[simp] theorem begin_ports (s : State) : s.begin.ports = s.ports := by unfold State.begin; split <;> rfl
@[simp] theorem begin_params (s : State) : s.begin.params = s.params := by unfold State.begin; split <;> rfl
@[simp] theorem begin_epoch (s : State) : s.begin.epoch = s.epoch := by unfold State.begin; split <;> rfl
@[simp] theorem begin_active (s : State) : s.begin.active = s.active := by unfold State.begin; split <;> rfl
@[simp] theorem begin_swap (s : State) : s.begin.swap = s.swap := by unfold State.begin; split <;> rfl
@[simp] theorem begin_rspValid (s : State) : s.begin.rspValid = none := by unfold State.begin; split <;> rfl
@[simp] theorem begin_port (s : State) (k : Nat) : s.begin.port k = s.port k := by simp [State.port]
@[simp] theorem begin_slot (s : State) (k : Nat) : s.begin.slot k = s.slot k := by simp [State.slot]

@[simp] theorem hwReset_tick (s : State) : s.hwReset.tick = s.tick := (rfl)
@[simp] theorem hwReset_params (s : State) : s.hwReset.params = s.params := (rfl)
@[simp] theorem hwReset_raisedFlags (s : State) : s.hwReset.raisedFlags = 0 := (rfl)
@[simp] theorem hwReset_writeIndex (s : State) : s.hwReset.writeIndex = 0 := (rfl)
@[simp] theorem hwReset_readIndex (s : State) : s.hwReset.readIndex = 0 := (rfl)
@[simp] theorem hwReset_storage (s : State) : s.hwReset.storage = [] := (rfl)
@[simp] theorem hwReset_ports (s : State) : s.hwReset.ports = List.replicate s.params.nports Port.reset := (rfl)
@[simp] theorem hwReset_rspValid (s : State) : s.hwReset.rspValid = none := (rfl)
@[simp] theorem hwReset_inputs (s : State) : s.hwReset.inputs = s.inputs := (rfl)

/-- The yield is nothing by itself (60_exceptions.md R239). -/
@[simp] theorem yield_eq (s : State) : s.yield = s := (rfl)

end Sys2Proof.Machine.State
end

