-- ==== Sys2Proof/Laws/Memory.lean ====
section
/-! SUPPORT. The laws of the ring storage: a read after a write, and that a write keeps the canonical form. -/

namespace Sys2Proof.Machine.Memory

@[simp] theorem read_nil (i : Nat) : Memory.read [] i = none := rfl

/-- A slot reads as what was just written to it. -/
@[simp] theorem read_write_same (m : Memory) (i : Nat) (v : Elem) : Memory.read (Memory.write m i v) i = some v := by
  induction m with
  | nil => simp [write, read]
  | cons e rest ih =>
    obtain ⟨j, u⟩ := e
    by_cases h : i = j
    · simp [write, read, h]
    · by_cases h' : i < j <;> simp [write, read, h, h', ih]

/-- Every other slot reads as before. -/
@[simp] theorem read_write_ne (m : Memory) {i k : Nat} (v : Elem) (h : k ≠ i) :
    Memory.read (Memory.write m i v) k = Memory.read m k := by
  induction m with
  | nil => by_cases h' : k < i <;> simp [write, read, h, h']
  | cons e rest ih =>
    obtain ⟨j, u⟩ := e
    by_cases hij : i = j
    · subst hij; simp [write, read, h]
    · by_cases hlt : i < j
      · by_cases hk : k < i
        · simp [write, read, hij, hlt, h, hk, Nat.lt_trans hk hlt, Nat.ne_of_lt (Nat.lt_trans hk hlt)]
        · simp [write, read, hij, hlt, h, hk]
      · by_cases hkj : k = j <;> by_cases hklt : k < j <;> simp [write, read, hij, hlt, hkj, hklt, ih]

/-- A list is in canonical form when its tail is and its first slot is below the tail's. -/
theorem wf_cons {i : Nat} {v : Elem} {m : Memory} :
    Memory.wf ((i, v) :: m) = true ↔ (∀ e ∈ m.head?, i < e.1) ∧ Memory.wf m = true := by
  cases m with
  | nil => simp [wf]
  | cons e rest => simp [wf]

/-- A write keeps the canonical form. -/
theorem write_wf {m : Memory} (i : Nat) (v : Elem) (h : Memory.wf m = true) :
    Memory.wf (Memory.write m i v) = true := by
  induction m with
  | nil => rfl
  | cons e rest ih =>
    obtain ⟨j, u⟩ := e
    obtain ⟨hj, hr⟩ := wf_cons.1 h
    by_cases hij : i = j
    · subst hij; simpa [write] using wf_cons.2 ⟨hj, hr⟩
    · by_cases hlt : i < j
      · simpa [write, hij, hlt] using wf_cons.2 ⟨by simp [hlt], h⟩
      · have hhead : ∀ e ∈ (Memory.write rest i v).head?, j < e.1 := by
          cases rest with
          | nil => simp [write]; omega
          | cons e' rest' =>
            obtain ⟨k, w⟩ := e'
            have hk : j < k := by simpa using hj
            by_cases h1 : i = k
            · subst h1; simpa [write] using hk
            · by_cases h2 : i < k
              · simp [write, h1, h2]; omega
              · simpa [write, h1, h2] using hk
        simpa [write, hij, hlt] using wf_cons.2 ⟨hhead, ih hr⟩

/-- A write to a slot that exists, of `ELEM_W` bits, keeps every listed slot existing and within its width. -/
theorem write_inRange {c : Params} {m : Memory} {i : Nat} {v : Elem} (hi : i < c.slots) (hv : v < 2 ^ c.elemW)
    (h : Memory.inRange c m = true) : Memory.inRange c (Memory.write m i v) = true := by
  induction m with
  | nil => simp [write, inRange, hi, hv]
  | cons e rest ih =>
    obtain ⟨j, u⟩ := e
    obtain ⟨hj, hr⟩ : (j < c.slots ∧ u < 2 ^ c.elemW) ∧ Memory.inRange c rest = true := by
      simpa [inRange] using h
    by_cases hij : i = j
    · subst hij; simpa [write, inRange, hi, hv] using hr
    · by_cases hlt : i < j
      · simpa [write, hij, hlt, inRange, hi, hv, hj] using hr
      · simpa [write, hij, hlt, inRange, hj] using ih hr

/-- What a slot in range reads as has `ELEM_W` bits. -/
theorem read_fits {c : Params} {m : Memory} {i : Nat} {v : Elem} (h : Memory.inRange c m = true)
    (hv : Memory.read m i = some v) : v < 2 ^ c.elemW := by
  induction m with
  | nil => simp at hv
  | cons e rest ih =>
    obtain ⟨j, u⟩ := e
    obtain ⟨hj, hr⟩ : (j < c.slots ∧ u < 2 ^ c.elemW) ∧ Memory.inRange c rest = true := by
      simpa [inRange] using h
    by_cases hij : i = j
    · obtain rfl : u = v := by simpa [read, hij] using hv
      exact hj.2
    · by_cases hlt : i < j
      · simp [read, hij, hlt] at hv
      · exact ih hr (by simpa [read, hij, hlt] using hv)

end Sys2Proof.Machine.Memory

namespace Sys2Proof.Machine

theorem truncElem_lt (c : Params) (v : Elem) : truncElem c v < 2 ^ c.elemW :=
  Nat.mod_lt _ (Nat.two_pow_pos _)

theorem truncElem_of_lt {c : Params} {v : Elem} (h : v < 2 ^ c.elemW) : truncElem c v = v := Nat.mod_eq_of_lt h

/-- The slot just written reads as the element (20_memory.md R60). -/
@[simp] theorem State.slot_storeSlot_same (s : State) (i : Nat) (v : Elem) :
    (s.storeSlot i v).slot i = truncElem s.params v := by
  simp [State.slot]

/-- Every other slot reads as before. -/
@[simp] theorem State.slot_storeSlot_ne (s : State) {i k : Nat} (v : Elem) (h : k ≠ i) :
    (s.storeSlot i v).slot k = s.slot k := by
  simp [State.slot, h]

/-- What any slot reads as, written or not, has `ELEM_W` bits. -/
theorem State.slot_fits {s : State} (h : Memory.inRange s.params s.storage = true) (i : Nat) :
    s.slot i < 2 ^ s.params.elemW := by
  unfold State.slot
  split
  · next hv => exact Memory.read_fits h hv
  · exact truncElem_lt _ _

end Sys2Proof.Machine
end

