-- ==== Sys2Proof/Laws/Ports.lean ====
section
/-! SUPPORT. What the shared operations on a port's registers do: reading after an update, and the other ports' frame.
The provers cite these instead of unfolding `updMe`, `goto` and `complete`. -/

namespace Sys2Proof.Machine.State

/-- Only an existing port is ever busy: the registers of a port the block does not have read as a reset, idle port. -/
theorem lt_length_of_busy {s : State} {p : Nat} (h : (s.port p).phase ≠ .idle) : p < s.ports.length := by
  by_contra hp
  exact h (by simp [port, List.getD, List.getElem?_eq_none (Nat.le_of_not_lt hp), Port.reset])

@[simp] theorem port_setPort_same {s : State} {p : Nat} (q : Port) (h : p < s.ports.length) :
    (s.setPort p q).port p = q := by
  simp [setPort, port, List.getD, h]

@[simp] theorem port_setPort_ne {s : State} {p k : Nat} (q : Port) (h : k ≠ p) :
    (s.setPort p q).port k = s.port k := by
  simp [setPort, port, List.getD, List.getElem?_set_ne (Ne.symm h)]

@[simp] theorem me_updMe {s : State} (f : Port → Port) (h : s.active < s.ports.length) :
    (s.updMe f).me = f s.me := port_setPort_same _ h

@[simp] theorem port_updMe_ne {s : State} {k : Nat} (f : Port → Port) (h : k ≠ s.active) :
    (s.updMe f).port k = s.port k := port_setPort_ne _ h

@[simp] theorem me_goto {s : State} (l : Phase) (h : s.active < s.ports.length) :
    (s.goto l).me = { s.me with phase := l } := me_updMe _ h

@[simp] theorem port_goto_ne {s : State} {k : Nat} (l : Phase) (h : k ≠ s.active) :
    (s.goto l).port k = s.port k := port_updMe_ne _ h

@[simp] theorem me_complete {s : State} (ill ok : Bool) (d : Nat) (h : s.active < s.ports.length) :
    (s.complete ill ok d).me = s.me.respond ill ok d :=
  me_updMe (fun q => q.respond ill ok d) h

@[simp] theorem port_complete_ne {s : State} {k : Nat} (ill ok : Bool) (d : Nat) (h : k ≠ s.active) :
    (s.complete ill ok d).port k = s.port k :=
  port_updMe_ne (fun q => q.respond ill ok d) h

@[simp] theorem length_updMe (s : State) (f : Port → Port) : (s.updMe f).ports.length = s.ports.length := by
  simp

@[simp] theorem length_goto (s : State) (l : Phase) : (s.goto l).ports.length = s.ports.length := by
  simp [goto]

@[simp] theorem length_complete (s : State) (ill ok : Bool) (d : Nat) :
    (s.complete ill ok d).ports.length = s.ports.length := by
  simp [complete]

/-- All that `complete` does (30_encoding.md R101). -/
theorem complete_completed {s : State} (ill ok : Bool) (d : Nat) (h : s.active < s.ports.length) :
    let t := s.complete ill ok d
    t.me = { s.me with rspIll := ill, rspOk := ok, rspData := d, phase := .idle } ∧
      t.rspValid = some s.active ∧ (∀ k, k ≠ s.active → t.port k = s.port k) ∧
      t.raisedFlags = s.raisedFlags ∧ t.writeIndex = s.writeIndex ∧ t.readIndex = s.readIndex ∧
      t.storage = s.storage :=
  ⟨me_complete ill ok d h, rfl, fun _ hk => port_complete_ne ill ok d hk, rfl, rfl, rfl, rfl⟩

end Sys2Proof.Machine.State
end

