-- ==== Sys2Proof/Laws/Ops.lean ====
section
/-! SUPPORT. What each shared access can do when it goes on, and the frame `Elsewhere` of the updates micro-steps are
made of. -/

namespace Sys2Proof.Machine

namespace State

/-- A load of the write index goes on exactly from an index in `0 .. N-1`. -/
@[simp] theorem loadWriteIndex_next {s t : State} {k : Nat → Out} :
    s.loadWriteIndex k = .next t ↔ s.writeIndex < s.params.slots ∧ k s.writeIndex = .next t := by
  unfold loadWriteIndex
  split <;> simp [*]

/-- A load of the read index goes on exactly from an index in `0 .. N-1`. -/
@[simp] theorem loadReadIndex_next {s t : State} {k : Nat → Out} :
    s.loadReadIndex k = .next t ↔ s.readIndex < s.params.slots ∧ k s.readIndex = .next t := by
  unfold loadReadIndex
  split <;> simp [*]

/-- A read of a slot goes on exactly where the slot exists, with what the slot reads as. -/
@[simp] theorem memRead_next {s t : State} {i : Nat} {k : Elem → Out} :
    s.memRead i k = .next t ↔ i < s.params.slots ∧ k (s.slot i) = .next t := by
  unfold memRead
  split <;> simp [*]

/-- A write of a slot goes on exactly where the slot exists, from the state with the slot written. -/
@[simp] theorem memWrite_next {s t : State} {i : Nat} {v : Elem} {k : State → Out} :
    s.memWrite i v k = .next t ↔ i < s.params.slots ∧ k (s.storeSlot i v) = .next t := by
  unfold memWrite
  split <;> simp [*]

end State

/-- A port that performs a micro-step exists. -/
theorem active_lt_of_phase {s : State} {l : Phase} (h : s.me.phase = l) (hl : l ≠ .idle) :
    s.active < s.ports.length :=
  State.lt_length_of_busy (h.symm ▸ hl)

namespace Elsewhere

theorem refl (s : State) : Elsewhere s s := by
  simp [Elsewhere, OthersSame, OwnOperandsSame, WorldSame]

theorem trans {s t u : State} (h : Elsewhere s t) (k : Elsewhere t u) : Elsewhere s u := by
  obtain ⟨ho, ⟨a, b, c, d⟩, w1, w2, w3, w4, w5, w6, w7⟩ := h
  obtain ⟨ho', ⟨a', b', c', d'⟩, v1, v2, v3, v4, v5, v6, v7⟩ := k
  refine ⟨fun p hp => (ho' p (by rwa [w6])).trans (ho p hp), ⟨?_, ?_, ?_, ?_⟩, ?_, ?_, ?_, ?_, ?_, ?_, ?_⟩ <;>
    simp_all

/-- An update of the own port's registers that keeps the operand registers. -/
theorem updMe {s : State} {f : Port → Port} (h : s.active < s.ports.length)
    (hf : (f s.me).op = s.me.op ∧ (f s.me).arg0 = s.me.arg0 ∧ (f s.me).arg1 = s.me.arg1 ∧
      (f s.me).wdata = s.me.wdata) : Elsewhere s (s.updMe f) := by
  simp +contextual [Elsewhere, OthersSame, OwnOperandsSame, WorldSame, h, hf]

theorem goto {s : State} (l : Phase) (h : s.active < s.ports.length) : Elsewhere s (s.goto l) :=
  updMe h ⟨rfl, rfl, rfl, rfl⟩

theorem complete {s : State} (ill ok : Bool) (d : Nat) (h : s.active < s.ports.length) :
    Elsewhere s (s.complete ill ok d) := by
  simp +contextual [Elsewhere, OthersSame, OwnOperandsSame, WorldSame, h, Port.respond]

theorem storeFlags (s : State) (v : Word) : Elsewhere s (s.storeFlags v) := by
  simp [Elsewhere, OthersSame, OwnOperandsSame, WorldSame]

theorem fetchOrFlags (s : State) (v : Word) : Elsewhere s (s.fetchOrFlags v) := by
  simp [Elsewhere, OthersSame, OwnOperandsSame, WorldSame]

theorem storeWriteIndex (s : State) (v : Nat) : Elsewhere s (s.storeWriteIndex v) := by
  simp [Elsewhere, OthersSame, OwnOperandsSame, WorldSame]

theorem storeReadIndex (s : State) (v : Nat) : Elsewhere s (s.storeReadIndex v) := by
  simp [Elsewhere, OthersSame, OwnOperandsSame, WorldSame]

theorem storeSlot (s : State) (i : Nat) (v : Elem) : Elsewhere s (s.storeSlot i v) := by
  simp [Elsewhere, OthersSame, OwnOperandsSame, WorldSame]

/-- `updMe` and then a jump. -/
theorem updMe_goto {s : State} {f : Port → Port} (l : Phase) (h : s.active < s.ports.length)
    (hf : (f s.me).op = s.me.op ∧ (f s.me).arg0 = s.me.arg0 ∧ (f s.me).arg1 = s.me.arg1 ∧
      (f s.me).wdata = s.me.wdata) : Elsewhere s ((s.updMe f).goto l) :=
  (updMe h hf).trans (goto l (by simpa using h))

/-- `updMe` and then `complete`. -/
theorem updMe_complete {s : State} {f : Port → Port} (ill ok : Bool) (d : Nat) (h : s.active < s.ports.length)
    (hf : (f s.me).op = s.me.op ∧ (f s.me).arg0 = s.me.arg0 ∧ (f s.me).arg1 = s.me.arg1 ∧
      (f s.me).wdata = s.me.wdata) : Elsewhere s ((s.updMe f).complete ill ok d) :=
  (updMe h hf).trans (complete ill ok d (by simpa using h))

end Elsewhere

end Sys2Proof.Machine
end

