-- ==== Sys2Proof/Laws/Exec.lean ====
section
/-! SUPPORT. The frame every micro-step of every operation keeps: the other ports, the port's own operand registers, the
tick, the parameters and the inputs (10_state.md R20, R30, 60_exceptions.md R238). First, all that each shared micro-step
with two outcomes can do. One lemma for each shared micro-step and each meaning; `exec_elsewhere` is what later proofs
cite. -/

namespace Sys2Proof.Machine

/-- All a deadline test can do: time out, or go on. -/
theorem checkDeadline_next {l : Phase} {s t : State} : checkDeadline l s = .next t ↔
    (dlExpired s.me.tDl s.tick = true ∧ t = (s.updMe fun q => { q with tNow := s.tick }).complete false false 0) ∨
    (dlExpired s.me.tDl s.tick = false ∧ t = (s.updMe fun q => { q with tNow := s.tick }).goto l) := by
  unfold checkDeadline
  by_cases h : dlExpired s.me.tDl s.tick = true <;> simp [h, State.loadTick, @eq_comm State t]

/-- All a look at the flags can do: answer the matching subset, or go on to the deadline. -/
theorem waitLook_next {f : Word} {s t : State} : waitLook f s = .next t ↔
    (s.raisedFlags &&& f ≠ 0 ∧ t = (s.updMe fun q => { q with tF := s.raisedFlags }).complete false true
      (zextData s.params (s.raisedFlags &&& f).toNat)) ∨
    (s.raisedFlags &&& f = 0 ∧ t = (s.updMe fun q => { q with tF := s.raisedFlags }).goto .waitW2) := by
  unfold waitLook
  by_cases h : s.raisedFlags &&& f = 0#32 <;> simp [h, matchFlags, truncFlags, State.loadFlags, @eq_comm State t]

/-- All the empty check can do: find nothing, or go on to the element. -/
theorem popLoadWrite_next {l : Phase} {g : State → State} {s t : State} : popLoadWrite l g s = .next t ↔
    s.writeIndex < s.params.slots ∧
      ((s.writeIndex = s.me.tR ∧ t = g (s.updMe fun q => { q with tW := s.writeIndex })) ∨
       (s.writeIndex ≠ s.me.tR ∧ t = (s.updMe fun q => { q with tW := s.writeIndex }).goto l)) := by
  unfold popLoadWrite ringEmpty
  by_cases h : s.writeIndex = s.me.tR <;> simp [h, @eq_comm State t]

theorem startDeadline_elsewhere {w : Word} {l : Phase} {s t : State} (hl : s.active < s.ports.length)
    (h : startDeadline w l s = .next t) : Elsewhere s t := by
  cases h
  exact Elsewhere.updMe hl ⟨rfl, rfl, rfl, rfl⟩

theorem checkDeadline_elsewhere {l : Phase} {s t : State} (hl : s.active < s.ports.length)
    (h : checkDeadline l s = .next t) : Elsewhere s t := by
  rcases checkDeadline_next.1 h with ⟨-, rfl⟩ | ⟨-, rfl⟩
  · exact Elsewhere.updMe_complete _ _ _ hl ⟨rfl, rfl, rfl, rfl⟩
  · exact Elsewhere.updMe_goto _ hl ⟨rfl, rfl, rfl, rfl⟩

theorem execDlNew_elsewhere {d : Word} {s t : State} (h : execDlNew d s = .next t) : Elsewhere s t := by
  unfold execDlNew at h
  split at h
  · next hp =>
    cases h
    exact Elsewhere.updMe_complete _ _ _ (active_lt_of_phase hp (by decide)) ⟨rfl, rfl, rfl, rfl⟩
  · cases h

theorem execDlExpired_elsewhere {s t : State} (h : execDlExpired s = .next t) : Elsewhere s t := by
  unfold execDlExpired at h
  split at h
  · next hp =>
    cases h
    exact Elsewhere.updMe_complete _ _ _ (active_lt_of_phase hp (by decide)) ⟨rfl, rfl, rfl, rfl⟩
  · cases h

theorem execNtfReset_elsewhere {s t : State} (h : execNtfReset s = .next t) : Elsewhere s t := by
  unfold execNtfReset at h
  split at h
  · next hp =>
    cases h
    exact (Elsewhere.storeFlags s 0).trans (Elsewhere.complete _ _ _ (active_lt_of_phase hp (by decide)))
  · cases h

theorem execNtfSet_elsewhere {f : Word} {s t : State} (h : execNtfSet f s = .next t) : Elsewhere s t := by
  unfold execNtfSet at h
  split at h
  · next hp =>
    cases h
    exact (Elsewhere.fetchOrFlags s _).trans (Elsewhere.complete _ _ _ (active_lt_of_phase hp (by decide)))
  · cases h

theorem waitLook_elsewhere {f : Word} {s t : State} (hl : s.active < s.ports.length)
    (h : waitLook f s = .next t) : Elsewhere s t := by
  rcases waitLook_next.1 h with ⟨-, rfl⟩ | ⟨-, rfl⟩
  · exact Elsewhere.updMe_complete _ _ _ hl ⟨rfl, rfl, rfl, rfl⟩
  · exact Elsewhere.updMe_goto _ hl ⟨rfl, rfl, rfl, rfl⟩

theorem execNtfWait_elsewhere {f d : Word} {s t : State} (h : execNtfWait f d s = .next t) : Elsewhere s t := by
  unfold execNtfWait at h
  split at h
  · next hp => exact startDeadline_elsewhere (active_lt_of_phase hp (by decide)) h
  · next hp => exact waitLook_elsewhere (active_lt_of_phase hp (by decide)) h
  · next hp => exact checkDeadline_elsewhere (active_lt_of_phase hp (by decide)) h
  · next hp =>
    cases h
    exact Elsewhere.goto _ (active_lt_of_phase hp (by decide))
  · cases h

theorem execRbPush_elsewhere {v : Elem} {s t : State} (h : execRbPush v s = .next t) : Elsewhere s t := by
  unfold execRbPush at h
  split at h
  · next hp =>
    obtain ⟨-, h⟩ := State.loadWriteIndex_next.1 h
    cases h
    exact Elsewhere.updMe (active_lt_of_phase hp (by decide)) ⟨rfl, rfl, rfl, rfl⟩
  · next hp =>
    obtain ⟨-, h⟩ := State.loadReadIndex_next.1 h
    split at h <;> cases h
    · exact Elsewhere.updMe_complete _ _ _ (active_lt_of_phase hp (by decide)) ⟨rfl, rfl, rfl, rfl⟩
    · exact Elsewhere.updMe_goto _ (active_lt_of_phase hp (by decide)) ⟨rfl, rfl, rfl, rfl⟩
  · next hp =>
    obtain ⟨-, h⟩ := State.memWrite_next.1 h
    cases h
    exact (Elsewhere.storeSlot s _ _).trans (Elsewhere.goto _ (active_lt_of_phase hp (by decide)))
  · next hp =>
    cases h
    exact (Elsewhere.storeWriteIndex s _).trans (Elsewhere.complete _ _ _ (active_lt_of_phase hp (by decide)))
  · cases h

theorem popLoadRead_elsewhere {l : Phase} {s t : State} (hl : s.active < s.ports.length)
    (h : popLoadRead l s = .next t) : Elsewhere s t := by
  obtain ⟨-, h⟩ := State.loadReadIndex_next.1 h
  cases h
  exact Elsewhere.updMe hl ⟨rfl, rfl, rfl, rfl⟩

/-- C2 keeps the frame when what it does on an empty ring keeps it. -/
theorem popLoadWrite_elsewhere {l : Phase} {g : State → State} {s t : State} (hl : s.active < s.ports.length)
    (hg : ∀ u : State, u.active < u.ports.length → Elsewhere u (g u)) (h : popLoadWrite l g s = .next t) :
    Elsewhere s t := by
  obtain ⟨-, ⟨-, rfl⟩ | ⟨-, rfl⟩⟩ := popLoadWrite_next.1 h
  · exact (Elsewhere.updMe hl ⟨rfl, rfl, rfl, rfl⟩).trans (hg _ (by simpa using hl))
  · exact Elsewhere.updMe_goto _ hl ⟨rfl, rfl, rfl, rfl⟩

theorem popRead_elsewhere {l : Phase} {s t : State} (hl : s.active < s.ports.length)
    (h : popRead l s = .next t) : Elsewhere s t := by
  obtain ⟨-, h⟩ := State.memRead_next.1 h
  cases h
  exact Elsewhere.updMe hl ⟨rfl, rfl, rfl, rfl⟩

theorem popFinish_elsewhere {s t : State} (hl : s.active < s.ports.length) (h : popFinish s = .next t) :
    Elsewhere s t := by
  cases h
  exact (Elsewhere.storeReadIndex s _).trans (Elsewhere.complete _ _ _ hl)

theorem execRbPop_elsewhere {s t : State} (h : execRbPop s = .next t) : Elsewhere s t := by
  unfold execRbPop at h
  split at h
  · next hp => exact popLoadRead_elsewhere (active_lt_of_phase hp (by decide)) h
  · next hp =>
    exact popLoadWrite_elsewhere (active_lt_of_phase hp (by decide)) (fun _ hu => Elsewhere.complete _ _ _ hu) h
  · next hp => exact popRead_elsewhere (active_lt_of_phase hp (by decide)) h
  · next hp => exact popFinish_elsewhere (active_lt_of_phase hp (by decide)) h
  · cases h

theorem execRbPopt_elsewhere {d : Word} {s t : State} (h : execRbPopt d s = .next t) : Elsewhere s t := by
  unfold execRbPopt at h
  split at h
  · next hp => exact startDeadline_elsewhere (active_lt_of_phase hp (by decide)) h
  · next hp => exact popLoadRead_elsewhere (active_lt_of_phase hp (by decide)) h
  · next hp =>
    exact popLoadWrite_elsewhere (active_lt_of_phase hp (by decide)) (fun _ hu => Elsewhere.goto _ hu) h
  · next hp => exact popRead_elsewhere (active_lt_of_phase hp (by decide)) h
  · next hp => exact popFinish_elsewhere (active_lt_of_phase hp (by decide)) h
  · next hp => exact checkDeadline_elsewhere (active_lt_of_phase hp (by decide)) h
  · next hp =>
    cases h
    exact Elsewhere.goto _ (active_lt_of_phase hp (by decide))
  · cases h

theorem execRbClear_elsewhere {s t : State} (h : execRbClear s = .next t) : Elsewhere s t := by
  unfold execRbClear at h
  split at h
  · next hp =>
    have hl := active_lt_of_phase hp (by decide)
    split at h <;> cases h
    · exact (Elsewhere.storeReadIndex s _).trans (Elsewhere.goto _ hl)
    · exact (Elsewhere.storeWriteIndex s _).trans (Elsewhere.goto _ hl)
  · next hp =>
    cases h
    exact (Elsewhere.storeWriteIndex s _).trans (Elsewhere.complete _ _ _ (active_lt_of_phase hp (by decide)))
  · next hp =>
    cases h
    exact (Elsewhere.storeReadIndex s _).trans (Elsewhere.complete _ _ _ (active_lt_of_phase hp (by decide)))
  · cases h

theorem execRbSize_elsewhere {s t : State} (h : execRbSize s = .next t) : Elsewhere s t := by
  unfold execRbSize at h
  split at h
  · next hp =>
    have hl := active_lt_of_phase hp (by decide)
    split at h
    · obtain ⟨-, h⟩ := State.loadReadIndex_next.1 h
      cases h
      exact Elsewhere.updMe hl ⟨rfl, rfl, rfl, rfl⟩
    · obtain ⟨-, h⟩ := State.loadWriteIndex_next.1 h
      cases h
      exact Elsewhere.updMe hl ⟨rfl, rfl, rfl, rfl⟩
  · next hp =>
    obtain ⟨-, h⟩ := State.loadWriteIndex_next.1 h
    cases h
    exact Elsewhere.updMe_complete _ _ _ (active_lt_of_phase hp (by decide)) ⟨rfl, rfl, rfl, rfl⟩
  · next hp =>
    obtain ⟨-, h⟩ := State.loadReadIndex_next.1 h
    cases h
    exact Elsewhere.updMe_complete _ _ _ (active_lt_of_phase hp (by decide)) ⟨rfl, rfl, rfl, rfl⟩
  · cases h

theorem execRbCap_elsewhere {s t : State} (h : execRbCap s = .next t) : Elsewhere s t := by
  unfold execRbCap at h
  split at h
  · next hp =>
    cases h
    exact Elsewhere.complete _ _ _ (active_lt_of_phase hp (by decide))
  · cases h

/-- Whatever the instruction, a micro-step that goes on changes nothing elsewhere. -/
theorem exec_elsewhere {i : Instr} {s t : State} (h : exec i s = .next t) : Elsewhere s t := by
  cases i with
  | dlNew _ => exact execDlNew_elsewhere h
  | dlExpired => exact execDlExpired_elsewhere h
  | ntfReset => exact execNtfReset_elsewhere h
  | ntfSet _ => exact execNtfSet_elsewhere h
  | ntfWait _ _ => exact execNtfWait_elsewhere h
  | rbPush _ => exact execRbPush_elsewhere h
  | rbPop => exact execRbPop_elsewhere h
  | rbPopt _ => exact execRbPopt_elsewhere h
  | rbClear => exact execRbClear_elsewhere h
  | rbSize => exact execRbSize_elsewhere h
  | rbCap => exact execRbCap_elsewhere h

end Sys2Proof.Machine
end

