-- ==== Sys2Proof/Laws/Step.lean ====
section
/-! SUPPORT. All a step of the machine can do (60_exceptions.md R237), once; and what a port's registers are after an
update of the port whose turn it is. -/

namespace Sys2Proof.Machine

namespace State

/-- Any port's registers after an update of the port whose turn it is. -/
theorem port_updMe {s : State} (f : Port → Port) (k : Nat) (h : s.active < s.ports.length) :
    (s.updMe f).port k = if k = s.active then f s.me else s.port k := by
  split
  · next hk => subst hk; exact me_updMe f h
  · next hk => exact port_updMe_ne f hk

/-- Any port's registers after a jump. -/
theorem port_goto {s : State} (l : Phase) (k : Nat) (h : s.active < s.ports.length) :
    (s.goto l).port k = if k = s.active then { s.me with phase := l } else s.port k :=
  port_updMe _ k h

/-- Any port's registers after `complete`. -/
theorem port_complete {s : State} (ill ok : Bool) (d k : Nat) (h : s.active < s.ports.length) :
    (s.complete ill ok d).port k = if k = s.active then s.me.respond ill ok d else s.port k :=
  port_updMe (fun q => q.respond ill ok d) k h

end State

/-- What a turn of a port can do when it goes on: nothing on an idle port, X1, or one micro-step of what the port's
latched command decodes to. -/
theorem microStep_cases {p : Nat} {b : Bool} {s t : State} (h : microStep p b s = .next t) :
    p < s.params.nports ∧
      (((s.port p).phase = .idle ∧ t = s) ∨
        ((s.port p).phase = .reservedX1 ∧ t = (s.turn p b).complete true false 0) ∨
        ∃ i, (s.port p).phase ≠ .idle ∧ (s.port p).phase ≠ .reservedX1 ∧ decode (s.port p).cmd = .ok i ∧
          exec i (s.turn p b) = .next t) := by
  unfold microStep at h
  split at h
  · next hn =>
    refine ⟨hn, ?_⟩
    split at h
    · next hp => cases h; exact .inl ⟨hp, rfl⟩
    · next hp => cases h; exact .inr (.inl ⟨hp, rfl⟩)
    · next hi hx =>
      split at h
      · next i hd => exact .inr (.inr ⟨i, hi, hx, hd, h⟩)
      · cases h
  · cases h

/-- What an issue can do when it goes on: an idle port latches the command, a busy one takes nothing. -/
theorem issueStep_cases {p : Nat} {m : Cmd} {s t : State} (h : issueStep p m s = .next t) :
    p < s.params.nports ∧
      (((s.port p).phase = .idle ∧ t = s.setPort p ((s.port p).latch s.params m)) ∨
        ((s.port p).phase ≠ .idle ∧ t = s)) := by
  unfold issueStep at h
  split at h
  · next hn =>
    refine ⟨hn, ?_⟩
    split at h
    · next hc => cases h; exact .inl ⟨by simpa [State.cmdReady] using hc, rfl⟩
    · next hc => cases h; exact .inr ⟨by simpa [State.cmdReady] using hc, rfl⟩
  · cases h

/-- All a step can do when it goes on: the tick, the reset, an issue, or a turn of a port. -/
theorem step_cases {s t : State} (h : step s = .next t) :
    (s.nextInput = .tick ∧ t = s.begin.tickStep) ∨
    (s.nextInput = .rst ∧ t = s.begin.hwReset) ∨
    (∃ p m, s.nextInput = .issue p m ∧ issueStep p m s.begin = .next t) ∨
    (∃ p b, s.nextInput = .micro p b ∧ microStep p b s.begin = .next t) := by
  unfold step at h
  cases hi : s.nextInput with
  | tick => rw [hi] at h; cases h; exact .inl ⟨rfl, rfl⟩
  | rst => rw [hi] at h; cases h; exact .inr (.inl ⟨rfl, rfl⟩)
  | issue p m => rw [hi] at h; exact .inr (.inr (.inl ⟨p, m, rfl, h⟩))
  | micro p b => rw [hi] at h; exact .inr (.inr (.inr ⟨p, b, rfl, h⟩))

end Sys2Proof.Machine
end

