-- ==== Sys2Proof/Laws/Execution.lean ====
section
/-! SUPPORT. What one step of an execution does to a port, the first turn of a port in a fair execution, and the laws of
`elapsed`. -/

namespace Sys2Proof.Machine

namespace State

@[simp] theorem offered_nextInput (s : State) (i : Input) : (s.offered i).nextInput = i := (rfl)
@[simp] theorem offered_tick (s : State) (i : Input) : (s.offered i).tick = s.tick := (rfl)
@[simp] theorem offered_raisedFlags (s : State) (i : Input) : (s.offered i).raisedFlags = s.raisedFlags := (rfl)
@[simp] theorem offered_writeIndex (s : State) (i : Input) : (s.offered i).writeIndex = s.writeIndex := (rfl)
@[simp] theorem offered_readIndex (s : State) (i : Input) : (s.offered i).readIndex = s.readIndex := (rfl)
@[simp] theorem offered_storage (s : State) (i : Input) : (s.offered i).storage = s.storage := (rfl)
@[simp] theorem offered_ports (s : State) (i : Input) : (s.offered i).ports = s.ports := (rfl)
@[simp] theorem offered_rspValid (s : State) (i : Input) : (s.offered i).rspValid = s.rspValid := (rfl)
@[simp] theorem offered_params (s : State) (i : Input) : (s.offered i).params = s.params := (rfl)
@[simp] theorem offered_inputs (s : State) (i : Input) : (s.offered i).inputs = [i] := (rfl)
@[simp] theorem offered_draws (s : State) (i : Input) : (s.offered i).draws = s.draws := (rfl)
@[simp] theorem offered_epoch (s : State) (i : Input) : (s.offered i).epoch = s.epoch := (rfl)
@[simp] theorem offered_active (s : State) (i : Input) : (s.offered i).active = s.active := (rfl)
@[simp] theorem offered_swap (s : State) (i : Input) : (s.offered i).swap = s.swap := (rfl)
@[simp] theorem offered_port (s : State) (i : Input) (p : Nat) : (s.offered i).port p = s.port p := (rfl)
@[simp] theorem offered_slot (s : State) (i : Input) (k : Nat) : (s.offered i).slot k = s.slot k := (rfl)

end State

/-! ## Ticks -/

@[simp] theorem elapsed_self (sched : Nat → Input) (n : Nat) : elapsed sched n n = 0 := by simp [elapsed]

/-- One step more: one tick more if it is the TickSource's. -/
theorem elapsed_succ (sched : Nat → Input) {n m : Nat} (h : n ≤ m) :
    elapsed sched n (m + 1) = elapsed sched n m + if sched m = .tick then 1 else 0 := by
  simp only [elapsed, Nat.succ_sub h, List.range'_concat, List.countP_append, List.countP_singleton]
  simp [Nat.add_sub_cancel' h]

/-- Elapsed ticks never go back. -/
theorem elapsed_mono (sched : Nat → Input) {n m k : Nat} (h : n ≤ m) (hk : m ≤ k) :
    elapsed sched n m ≤ elapsed sched n k := by
  induction k, hk using Nat.le_induction with
  | base => exact Nat.le_refl _
  | succ k hk ih => rw [elapsed_succ sched (h.trans hk)]; omega

/-- In a fair execution any number of ticks elapses. -/
theorem Fair.elapsed_unbounded {sched : Nat → Input} {run : Nat → State} (hf : Fair sched run) (n d : Nat) :
    ∃ m, n ≤ m ∧ d ≤ elapsed sched n m := by
  induction d with
  | zero => exact ⟨n, Nat.le_refl _, Nat.zero_le _⟩
  | succ d ih =>
    obtain ⟨m, hm, hd⟩ := ih
    obtain ⟨k, hk, ht⟩ := hf.ticks m
    refine ⟨k + 1, by omega, ?_⟩
    rw [elapsed_succ sched (hm.trans hk), if_pos ht]
    have := elapsed_mono sched hm hk
    omega

/-! ## Ports -/

/-- A turn in an execution: the port is idle, answers a reserved opcode, or does one micro-step of its instruction. -/
theorem Execution.turn_cases {sched : Nat → Input} {run : Nat → State} (he : Execution sched run) {n p : Nat} {b : Bool}
    (h : sched n = .micro p b) :
    let s := ((run n).offered (sched n)).begin
    ((s.port p).phase = .idle ∧ run (n + 1) = s) ∨
      ((s.port p).phase = .reservedX1 ∧ run (n + 1) = (s.turn p b).complete true false 0) ∨
      ∃ i, decode (s.port p).cmd = .ok i ∧ exec i (s.turn p b) = .next (run (n + 1)) := by
  rcases step_cases (he n) with ⟨hi, -⟩ | ⟨hi, -⟩ | ⟨q, m, hi, -⟩ | ⟨q, c, hi, hs⟩ <;>
    rw [State.offered_nextInput, h] at hi
  · cases hi
  · cases hi
  · cases hi
  · cases hi
    rcases (microStep_cases hs).2 with h1 | h1 | ⟨i, -, -, hd, hx⟩
    · exact .inl h1
    · exact .inr (.inl h1)
    · exact .inr (.inr ⟨i, hd, hx⟩)

/-- A busy port keeps its registers until its own next turn, unless the block is reset. -/
theorem Execution.port_kept {sched : Nat → Input} {run : Nat → State} (he : Execution sched run) {n p : Nat}
    (hb : ((run n).port p).phase ≠ .idle) (hr : sched n ≠ .rst) (ht : ∀ b, sched n ≠ .micro p b) :
    (run (n + 1)).port p = (run n).port p := by
  rcases step_cases (he n) with ⟨-, h⟩ | ⟨hi, -⟩ | ⟨q, m, hi, hs⟩ | ⟨q, b, hi, hs⟩
  · rw [h]; simp
  · exact absurd hi hr
  · obtain ⟨-, ⟨hq, h⟩ | ⟨-, h⟩⟩ := issueStep_cases hs
    · have hne : p ≠ q := by rintro rfl; exact hb (by simpa using hq)
      rw [h, State.port_setPort_ne _ hne]; simp
    · rw [h]; simp
  · have hne : p ≠ q := by rintro rfl; exact ht b hi
    obtain ⟨-, ⟨-, h⟩ | ⟨-, h⟩ | ⟨i, -, -, -, hx⟩⟩ := microStep_cases hs
    · rw [h]; simp
    · rw [h, State.port_complete_ne _ _ _ (by simpa using hne)]; simp
    · rw [(exec_elsewhere hx).1 p (by simpa using hne)]; simp

/-- The tick after the ticks that have elapsed, in an execution without reset (the tick is 32 bits wide, `elapsed` is
not reduced). -/
theorem Execution.tick_elapsed {sched : Nat → Input} {run : Nat → State} (he : Execution sched run) {n m : Nat}
    (h : n ≤ m) (hr : ∀ k, sched k ≠ .rst) :
    (run m).tick = (run n).tick + BitVec.ofNat 32 (elapsed sched n m) := by
  induction m, h using Nat.le_induction with
  | base => simp
  | succ m h ih =>
    have hstep : (run (m + 1)).tick = (run m).tick + if sched m = .tick then 1 else 0 := by
      rcases step_cases (he m) with ⟨hi, hs⟩ | ⟨hi, -⟩ | ⟨q, c, hi, hs⟩ | ⟨q, b, hi, hs⟩ <;>
        rw [State.offered_nextInput] at hi
      · simp [hs, hi]
      · exact absurd hi (hr m)
      · obtain ⟨-, ⟨-, hs⟩ | ⟨-, hs⟩⟩ := issueStep_cases hs <;> simp [hs, hi]
      · obtain ⟨-, ⟨-, hs⟩ | ⟨-, hs⟩ | ⟨i, -, -, -, hx⟩⟩ := microStep_cases hs
        · simp [hs, hi]
        · simp [hs, hi]
        · simp [(exec_elsewhere hx).2.2.1, hi]
    rw [elapsed_succ sched h, hstep, ih]
    split <;> simp [BitVec.ofNat_add, BitVec.add_assoc]

/-- No more ticks than steps. -/
theorem elapsed_le (sched : Nat → Input) (n m : Nat) : elapsed sched n m ≤ m - n := by
  simpa [elapsed] using List.countP_le_length (p := fun k => sched k == .tick) (l := List.range' n (m - n))

/-- A port that stays busy in a fair execution without reset comes to its next turn with its registers as they were. -/
theorem Fair.next_turn {sched : Nat → Input} {run : Nat → State} (hf : Fair sched run) (he : Execution sched run)
    (hr : ∀ k, sched k ≠ .rst) {n p : Nat} (hb : ∀ m, n ≤ m → ((run m).port p).phase ≠ .idle) :
    ∃ m b, n ≤ m ∧ sched m = .micro p b ∧ (run m).port p = (run n).port p := by
  have hex : ∃ m, n ≤ m ∧ ∃ b, sched m = .micro p b := by
    obtain ⟨m, b, hm, hs⟩ := hf.ports p n hb
    exact ⟨m, hm, b, hs⟩
  classical
  obtain ⟨hm, b, hs⟩ := Nat.find_spec hex
  refine ⟨_, b, hm, hs, ?_⟩
  have key : ∀ k, n ≤ k → k ≤ Nat.find hex → (run k).port p = (run n).port p := by
    intro k hk
    induction k, hk using Nat.le_induction with
    | base => exact fun _ => rfl
    | succ k hk ih =>
      intro hle
      rw [← ih (by omega)]
      refine he.port_kept (hb k hk) (hr k) fun c hc => ?_
      exact Nat.find_min hex (m := k) (by omega) ⟨hk, c, hc⟩
  exact key _ hm (Nat.le_refl _)

end Sys2Proof.Machine
end

