-- ==== Sys2Proof/Laws/PerInstr.lean ====
section
/-! SUPPORT. Statements about every instruction as syntax, one lemma for each constructor. -/

namespace Sys2Proof.Laws.Encodes

/-- What the encoder writes for an instruction, the decoder reads back whatever the element width, and the opcode byte
alone says which operation it is (30_encoding.md R93, R98). -/
def Statement (i : Instr) : Prop :=
  decode (encode i) = .ok i ∧ Opc.ofByte (encode i).op = some i.opc

theorem dlNew (d : Word) : Statement (.dlNew d) := ⟨rfl, rfl⟩
theorem dlExpired : Statement .dlExpired := ⟨rfl, rfl⟩
theorem ntfReset : Statement .ntfReset := ⟨rfl, rfl⟩
theorem ntfSet (f : Word) : Statement (.ntfSet f) := ⟨rfl, rfl⟩
theorem ntfWait (f t : Word) : Statement (.ntfWait f t) := ⟨rfl, rfl⟩
theorem rbPush (v : Elem) : Statement (.rbPush v) := ⟨rfl, rfl⟩
theorem rbPop : Statement .rbPop := ⟨rfl, rfl⟩
theorem rbPopt (t : Word) : Statement (.rbPopt t) := ⟨rfl, rfl⟩
theorem rbClear : Statement .rbClear := ⟨rfl, rfl⟩
theorem rbSize : Statement .rbSize := ⟨rfl, rfl⟩
theorem rbCap : Statement .rbCap := ⟨rfl, rfl⟩

end Sys2Proof.Laws.Encodes
end

