-- ==== Sys2Proof/Tests/Slice0.lean ====
section
/-! SUPPORT. The model's own tests. Expected values are those of spec/95_test_vectors.md (the vector is named) or are
written out by hand from the rule named. After the tests stand the witnesses: for each statement that has hypotheses, a
concrete state and operands that meet them. -/

namespace Sys2Proof.Tests

open Sys2Proof.Machine

/-! ## Small states -/

/-- The vectors' block after reset, at a tick. -/
def base (tick : Word) : State := State.resetAt ⟨32, 4, 2⟩ tick

/-- The same with a ring. -/
def ring (w r : Nat) (m : Memory) (s : State) : State := { s with writeIndex := w, readIndex := r, storage := m }

/-- The same with raised flags. -/
def raised (f : Word) (s : State) : State := { s with raisedFlags := f }

/-- The same with a command in flight on port `p`, at phase `l`, and that port's turn. -/
def fly (p : Nat) (m : Cmd) (l : Phase) (s : State) : State :=
  { s.setPort p { s.port p with op := m.op, arg0 := m.arg0, arg1 := m.arg1, wdata := m.wdata, phase := l } with
    active := p }

/-- The same with the locals of the port whose turn it is. -/
def locals (w r v : Nat) (dl : Deadline) (s : State) : State :=
  s.updMe fun q => { q with tW := w, tR := r, tV := v, tDl := dl }

/-- The same with a move to come. -/
def coming (i : Input) (s : State) : State := { s with inputs := i :: s.inputs }

/-- What one looks at in the next state; none where there is no next state. -/
def look {α : Type} (f : State → α) : Out → Option α
  | .next t => some (f t)
  | .fault _ => none
  | .refused _ => none

/-- The response of a port, `ill/ok/data`, as the vectors write it, if the port is idle. -/
def answer (p : Nat) (t : State) : Bool × Bool × Nat × Bool :=
  ((t.port p).rspIll, (t.port p).rspOk, (t.port p).rspData, (t.port p).phase == .idle)

/-! ## Well-formedness: for each check an ill-formed term it refuses -/

theorem test_params_elem_width_zero : Params.ok ⟨0, 4, 2⟩ = false := by decide
theorem test_params_capacity_zero : Params.ok ⟨32, 0, 2⟩ = false := by decide
theorem test_params_no_port : Params.ok ⟨32, 4, 0⟩ = false := by decide
theorem test_params_vectors : Params.ok ⟨32, 4, 2⟩ = true := by decide
theorem test_elem_too_wide : Elem.fits ⟨8, 4, 2⟩ 256 = false := by decide
theorem test_instr_push_too_wide : (Instr.rbPush 256).wf ⟨8, 4, 2⟩ = false := by decide
theorem test_cmd_wdata_too_wide : Cmd.wf ⟨8, 4, 2⟩ ⟨0x31, 0, 0, 256⟩ = false := by decide
theorem test_input_issue_no_such_port : (Input.issue 2 ⟨0x31, 0, 0, 0⟩).wf ⟨32, 4, 2⟩ = false := by decide
theorem test_input_micro_no_such_port : (Input.micro 2 false).wf ⟨32, 4, 2⟩ = false := by decide
theorem test_state_index_out_of_range : (ring 5 0 [] (base 0)).wf = false := by decide
theorem test_state_storage_not_canonical : (ring 0 0 [(1, 7), (0, 7)] (base 0)).wf = false := by decide
theorem test_state_slot_out_of_range : (ring 0 0 [(5, 7)] (base 0)).wf = false := by decide
theorem test_state_phase_of_another_opcode : (fly 0 ⟨0x31, 0, 0, 0⟩ .setS1 (base 0)).wf = false := by decide

/-! ## Derived parameters (00_scope.md R5) -/

theorem test_params_derived : (Params.slots ⟨32, 4, 2⟩, Params.idxW ⟨32, 4, 2⟩, Params.dataW ⟨32, 4, 2⟩) = (5, 3, 32) := by
  decide
theorem test_params_index_width_least : (Params.idxW ⟨32, 1, 2⟩, Params.idxW ⟨32, 3, 2⟩, Params.idxW ⟨32, 7, 2⟩,
    Params.idxW ⟨32, 8, 2⟩, Params.dataW ⟨40, 4, 2⟩) = (1, 2, 3, 4, 40) := by decide

/-! ## Decoding (V-ENC-01 to V-ENC-16; command words of 104 bits) -/

theorem test_decode_dl_new : (decodeCW ⟨32, 4, 2⟩ 0x10000000320000000000000000).toOption = some (.dlNew 0x32) := by decide
theorem test_decode_dl_expired : (decodeCW ⟨32, 4, 2⟩ 0x11000000000000000000000000).toOption = some .dlExpired := by
  decide
theorem test_decode_ntf_reset : (decodeCW ⟨32, 4, 2⟩ 0x20000000000000000000000000).toOption = some .ntfReset := by decide
theorem test_decode_ntf_set : (decodeCW ⟨32, 4, 2⟩ 0x21000000020000000000000000).toOption = some (.ntfSet 2) := by decide
theorem test_decode_ntf_wait :
    (decodeCW ⟨32, 4, 2⟩ 0x22000000030000006400000000).toOption = some (.ntfWait 3 100) := by decide
theorem test_decode_rb_push : (decodeCW ⟨32, 4, 2⟩ 0x3000000000000000000000002A).toOption = some (.rbPush 0x2A) := by
  decide
theorem test_decode_rb_pop : (decodeCW ⟨32, 4, 2⟩ 0x31000000000000000000000000).toOption = some .rbPop := by decide
theorem test_decode_rb_popt : (decodeCW ⟨32, 4, 2⟩ 0x32000000050000000000000000).toOption = some (.rbPopt 5) := by decide
theorem test_decode_rb_clear : (decodeCW ⟨32, 4, 2⟩ 0x33000000000000000000000000).toOption = some .rbClear := by decide
theorem test_decode_rb_size : (decodeCW ⟨32, 4, 2⟩ 0x34000000000000000000000000).toOption = some .rbSize := by decide
theorem test_decode_rb_cap : (decodeCW ⟨32, 4, 2⟩ 0x35000000000000000000000000).toOption = some .rbCap := by decide
/-- V-ENC-12 to V-ENC-14: the bytes on both sides of every gap. -/
theorem test_decode_reserved : ∀ b ∈ [0x00, 0x0F, 0x12, 0x1F, 0x23, 0x2F, 0x36, 0x3F, 0x40, 0xFF],
    decode? ⟨BitVec.ofNat 8 b, 0xFFFFFFFF, 0xFFFFFFFF, 0xFFFFFFFF⟩ = none := by decide
/-- V-ENC-15. -/
theorem test_decode_ignores_z :
    (decodeCW ⟨32, 4, 2⟩ 0x31DEADBEEF12345678CAFEF00D).toOption = some .rbPop := by decide
/-- V-ENC-16. -/
theorem test_decode_ignores_a :
    (decodeCW ⟨32, 4, 2⟩ 0x2100000002FFFFFFFF55555555).toOption = some (.ntfSet 2) := by decide
theorem test_encode_wait : encodeCW ⟨32, 4, 2⟩ (.ntfWait 3 0x64) = 0x22000000030000006400000000 := by decide
/-- An element of 8 bits makes a command word of 80 bits (30_encoding.md R91). -/
theorem test_encode_narrow : encodeCW ⟨8, 4, 2⟩ (.rbPush 0xA5) = 0x300000000000000000A5 := by decide
theorem test_table_bytes : [0x10, 0x11, 0x20, 0x21, 0x22, 0x30, 0x31, 0x32, 0x33, 0x34, 0x35].map (decodeTableWord 8) =
    [some (.dlNew 0), some .dlExpired, some .ntfReset, some (.ntfSet 0), some (.ntfWait 0 0), some (.rbPush 0),
      some .rbPop, some (.rbPopt 0), some .rbClear, some .rbSize, some .rbCap] := by decide
theorem test_listing : (Instr.ntfWait 3 0x64).listing ⟨32, 4, 2⟩ = "22 00000003 00000064 -" := by decide
theorem test_asm : (Instr.ntfWait 3 100).asm = "NTF.WAIT 3, 100" := by decide

/-! ## Placing an instruction -/

/-- V-RB-01, placed by `withFetchWord`. -/
theorem test_placed_cap : look (answer 0) (step (State.reset.withFetchWord 8 0x35)) = some (false, true, 4, true) := by
  decide
theorem test_placed_push : look (fun t => (t.port 0).phase) (step (State.reset.withFetchWord 8 0x30)) = some .pushP2 := by
  decide
/-- V-ENC-12. -/
theorem test_placed_reserved :
    look (answer 0) (step (State.reset.withFetchWord 8 0x00)) = some (true, false, 0, true) := by decide

/-! ## DL -/

/-- V-DL-05, V-DL-06: the last tick of the expired range and the first one after it. -/
theorem test_dl_expired_window : (dlExpired (dlNew 0x64 0x32) 0x80000095, dlExpired (dlNew 0x64 0x32) 0x80000096) =
    (true, false) := by decide
/-- V-DL-11, V-DL-12: durations beyond 2^31 read as expired at once. -/
theorem test_dl_expired_too_long : (dlExpired (dlNew 0 0x80000001) 0, dlExpired (dlNew 0 0xFFFFFFFE) 0) =
    (true, true) := by decide
/-- V-DL-20. -/
theorem test_dl_new : look (fun t => ((t.port 0).dl, answer 0 t))
    (exec (.dlNew 0x20) (fly 0 ⟨0x10, 0x20, 0, 0⟩ .newN1 (base 0xFFFFFFF0))) =
    some (⟨0x10, false⟩, false, true, 0, true) := by decide
/-- V-DL-24. -/
theorem test_dl_never : look (fun t => (t.port 0).dl)
    (exec .dlNever (fly 0 ⟨0x10, 0xFFFFFFFF, 0, 0⟩ .newN1 (base 0x8000000F))) = some ⟨0x8000000E, true⟩ := by decide
/-- V-DL-21, V-DL-22: one tick short, and at the target. -/
theorem test_dl_expired : [0xF, 0x10].map (fun n => look (answer 0) (exec .dlExpired
      ((fly 0 ⟨0x11, 0, 0, 0⟩ .expiredE1 (base n)).updMe fun q => { q with dl := ⟨0x10, false⟩, dlCreated := true }))) =
    [some (false, true, 0, true), some (false, true, 1, true)] := by decide

/-! ## NTF -/

/-- V-NTF-01. -/
theorem test_ntf_reset : look (fun t => (t.raisedFlags, answer 0 t))
    (exec .ntfReset (fly 0 ⟨0x20, 0, 0, 0⟩ .resetZ1 (raised 5 (base 0)))) = some (0, false, true, 0, true) := by decide
/-- V-NTF-04, on port 1. -/
theorem test_ntf_set : look (fun t => (t.raisedFlags, answer 1 t))
    (exec (.ntfSet 9) (fly 1 ⟨0x21, 9, 0, 0⟩ .setS1 (raised 2 (base 0)))) = some (0xB, false, true, 0, true) := by decide
/-- V-NTF-08: the raised wanted flags at once, and none cleared. -/
theorem test_ntf_wait_match : look (fun t => (t.raisedFlags, answer 0 t))
    (execTimes (.ntfWait 3 0) 2 (fly 0 ⟨0x22, 3, 0, 0⟩ .waitW0 (raised 0xB (base 7)))) =
    some (0xB, false, true, 3, true) := by decide
/-- V-NTF-07: an unwanted flag; time out at W2. -/
theorem test_ntf_wait_timeout : look (fun t => (t.raisedFlags, answer 0 t))
    (execTimes (.ntfWait 1 0) 3 (fly 0 ⟨0x22, 1, 0, 0⟩ .waitW0 (raised 2 (base 7)))) =
    some (2, false, false, 0, true) := by decide

/-! ## RB -/

/-- V-RB-05: the write index wraps. -/
theorem test_rb_push_wraps : look (fun t => (t.writeIndex, t.slot 4, answer 1 t))
    (execTimes (.rbPush 0x15) 4 (fly 1 ⟨0x30, 0, 0, 0x15⟩ .pushP1
      (ring 4 4 [(0, 0x11), (1, 0x12), (2, 0x13), (3, 0x14)] (base 0)))) =
    some (0, 0x15, false, true, 0, true) := by decide
/-- P1 line 6: a push on the full ring. -/
theorem test_rb_push_full : look (fun t => (t.writeIndex, t.readIndex, answer 1 t))
    (execTimes (.rbPush 5) 2 (fly 1 ⟨0x30, 0, 0, 5⟩ .pushP1 (ring 4 0 [(0, 1), (1, 2), (2, 3), (3, 4)] (base 0)))) =
    some (4, 0, false, false, 0, true) := by decide
/-- V-RB-08: a pop at the last slot, the read index wraps. -/
theorem test_rb_pop_wraps : look (fun t => (t.readIndex, answer 0 t))
    (execTimes .rbPop 4 (fly 0 ⟨0x31, 0, 0, 0⟩ .popC1 (ring 1 4 [(0, 0x16), (4, 0x15)] (base 0)))) =
    some (0, false, true, 0x15, true) := by decide
/-- V-RB-03: a pop on the empty ring reads no slot. -/
theorem test_rb_pop_empty : look (answer 0) (execTimes .rbPop 2 (fly 0 ⟨0x31, 0, 0, 0⟩ .popC1 (base 0))) =
    some (false, false, 0, true) := by decide
/-- V-RB-13. -/
theorem test_rb_popt_takes : look (fun t => (t.readIndex, answer 0 t))
    (execTimes (.rbPopt 0) 5 (fly 0 ⟨0x32, 0, 0, 0⟩ .poptT0 (ring 1 0 [(0, 0x55)] (base 77)))) =
    some (1, false, true, 0x55, true) := by decide
/-- V-RB-10, its first round: the deadline, and the yield's label. -/
theorem test_rb_popt_waits : look (fun t => ((t.port 0).tDl, (t.port 0).phase))
    (execTimes (.rbPopt 5) 4 (fly 0 ⟨0x32, 5, 0, 0⟩ .poptT0 (base 10))) = some (⟨15, false⟩, .poptT2) := by decide
/-- V-RB-09. -/
theorem test_rb_clear : look (fun t => (t.writeIndex, t.readIndex, t.slot 1, (t.port 0).rspOk))
    (execTimes .rbClear 2 (fly 0 ⟨0x33, 0, 0, 0⟩ .clearK (ring 3 1 [(0, 0xA), (1, 0xB), (2, 0xC)] (base 0)))) =
    some (0, 0, 0xB, true) := by decide
/-- V-RB-06: the size across the wrap. -/
theorem test_rb_size : look (answer 0) (execTimes .rbSize 2 (fly 0 ⟨0x34, 0, 0, 0⟩ .sizeQ (ring 0 4 [(4, 0x15)] (base 0)))) =
    some (false, true, 1, true) := by decide
/-- V-RB-01. -/
theorem test_rb_cap : look (answer 0) (exec .rbCap (fly 0 ⟨0x35, 0, 0, 0⟩ .capA1 (base 0))) = some (false, true, 4, true) := by
  decide

/-! ## Steps -/

/-- An issue latches every signal (30_encoding.md R99). -/
theorem test_issue : look (fun t => ((t.port 1).cmd, (t.port 1).phase, (t.port 0).phase))
    (step (coming (.issue 1 ⟨0x22, 3, 100, 0x2A⟩) (base 0))) = some (⟨0x22, 3, 100, 0x2A⟩, .waitW0, .idle) := by decide
/-- The tick wraps (10_state.md R22). -/
theorem test_tick_wraps : look (·.tick) (step (coming .tick (base 0xFFFFFFFF))) = some 0 := by decide
/-- The reset clears the flags and abandons the operation, and leaves the tick (70_reset_and_hazards.md R260). -/
theorem test_reset_input : look (fun t => (t.tick, t.raisedFlags, t.writeIndex, (t.port 0).phase))
    (step (coming .rst (fly 0 ⟨0x22, 1, 5, 0⟩ .waitW2 (ring 2 1 [(1, 9)] (raised 5 (base 3)))))) =
    some (3, 0, 0, .idle) := by decide
/-- An input for a port the block does not have (log 13). -/
theorem test_no_such_port : look (·.tick) (step (coming (.micro 2 false) (base 0))) = none := by decide

/-! ## Witnesses: for each statement with hypotheses, a state and operands that meet them (each clause its own) -/

theorem witness_CommandWordRoundTrip :
    (Instr.rbPush (2 ^ 32 - 1)).wf ⟨32, 4, 2⟩ = true ∧ 2 ^ 104 - 1 < 2 ^ (72 + Params.elemW ⟨32, 4, 2⟩) := by decide

theorem witness_ResultsZeroExtend : 2 ^ 40 - 1 < 2 ^ Params.dataW ⟨40, 4, 2⟩ := by decide

theorem witness_DlExpiredSignedTest :
    (Deadline.mk 4 true).unlimited = true ∧ (Deadline.mk 0x10 false).unlimited = false := by decide

theorem witness_SentinelNeverExpires : (0xFFFFFFFE : Word) ≠ 0xFFFFFFFF := by decide

theorem witness_ZeroDurationExpiredAtOnce : 2147483647 < 2 ^ 31 := by decide

/-- The clauses at their edges: `e` before the end by 2^31 and by one more, at the end, one before 2^31 after it, at it,
one before 2^32 after it, and at it; the last one at the largest duration the window allows. -/
theorem witness_EvaluatorTruthWindow :
    let far : Word := 0x80000001
    let edge : Word := 0x80000000
    let d : Word := 50
    (edge ≠ 0xFFFFFFFF ∧ 0 < edge.toNat ∧ edge.toNat - 0 ≤ 2 ^ 31) ∧
    (far ≠ 0xFFFFFFFF ∧ 0 < far.toNat ∧ 2 ^ 31 < far.toNat - 0) ∧
    (d ≠ 0xFFFFFFFF ∧ d.toNat ≤ 50 ∧ 2147483697 < d.toNat + 2 ^ 31) ∧
    (d.toNat + 2 ^ 31 ≤ 2147483698 ∧ 4294967345 < d.toNat + 2 ^ 32) ∧
    d.toNat + 2 ^ 32 ≤ 4294967346 := by decide

theorem witness_DlNewStoresDeadline :
    (Cmd.mk 0x10 0x20 0 0).op = 0x10 ∧ (fly 0 ⟨0x10, 0x20, 0, 0⟩ .newN1 (base 0xFFFFFFF0)).me.phase = .newN1 := by decide

theorem witness_DlExpiredAnswers :
    let s := (fly 0 ⟨0x11, 0, 0, 0⟩ .expiredE1 (base 0x10)).updMe fun q => { q with dl := ⟨0x10, false⟩, dlCreated := true }
    (Cmd.mk 0x11 0 0 0).op = 0x11 ∧ s.me.phase = .expiredE1 ∧ s.me.dlCreated = true := by decide

theorem witness_DlExpiredUncreatedIsFree :
    let s := fly 1 ⟨0x11, 0, 0, 0⟩ .expiredE1 (base 0)
    s.me.phase = .expiredE1 ∧ s.me.dlCreated = false := by decide

/-- At the tick of the deadline and one before it, for both operations, and at the largest duration. -/
theorem witness_TimeoutNeverEarly :
    let wait := fun n : Word => locals 0 0 0 (dlNew 200 10) (fly 0 ⟨0x22, 1, 10, 0⟩ .waitW2 (base n))
    let popt := locals 0 0 0 (dlNew 0 0x80000000) (fly 0 ⟨0x32, 0x80000000, 0, 0⟩ .poptT1 (base 0xFFFFFFFF))
    ((wait 210).me.tDl = dlNew 200 10 ∧ (10 : Word).toNat ≤ 2 ^ 31 ∧ 10 < (10 : Word).toNat + 2 ^ 31 ∧
      (wait 210).tick = 200 + BitVec.ofNat 32 10 ∧ (wait 210).me.phase = .waitW2 ∧ (10 : Word).toNat ≤ 10) ∧
    ((wait 209).tick = 200 + BitVec.ofNat 32 9 ∧ (wait 209).me.tDl = dlNew 200 10 ∧ 9 < (10 : Word).toNat) ∧
    (popt.me.tDl = dlNew 0 0x80000000 ∧ (0x80000000 : Word).toNat ≤ 2 ^ 31 ∧
      4294967295 < (0x80000000 : Word).toNat + 2 ^ 31 ∧ popt.tick = 0 + BitVec.ofNat 32 4294967295 ∧
      popt.me.phase = .poptT1) := by decide

/-- What holds of the two ports of a state and of a port at reset holds of every port. -/
theorem all_ports {P : Nat → Port → Prop} {s : State} {a b : Port} (hs : s.ports = [a, b]) (ha : P 0 a) (hb : P 1 b)
    (hr : ∀ p, P p Port.reset) (p : Nat) : P p (s.port p) := by
  unfold State.port
  rw [hs]
  match p with
  | 0 => exact ha
  | 1 => exact hb
  | p + 2 => exact hr (p + 2)

/-- The states a schedule leads through. -/
def follow (sched : Nat → Input) (s : State) : Nat → State
  | 0 => s
  | n + 1 =>
    match step ((follow sched s n).offered (sched n)) with
    | .next t => t
    | .fault _ => follow sched s n
    | .refused _ => follow sched s n

theorem follow_next {sched : Nat → Input} {s : State} {n : Nat}
    (h : ∃ t, step ((follow sched s n).offered (sched n)) = .next t) :
    step ((follow sched s n).offered (sched n)) = .next (follow sched s (n + 1)) := by
  obtain ⟨t, h⟩ := h
  simp [follow, h]

/-- Port 0's first micro-step, a tick, its three others, then ticks for ever. -/
def oneTick : Nat → Input
  | 0 => .micro 0 false
  | 1 => .tick
  | 2 | 3 | 4 => .micro 0 false
  | _ + 5 => .tick

/-- An NTF.WAIT 1, 1 and an RB.POPT 1 about to make their deadline of one tick. -/
def timed (l : Phase) (m : Cmd) : State := fly 0 m l (base 0xFFFFFFFF)

/-- Port 0 is free after the five steps and stays so. -/
theorem oneTick_idle {s : State} (h5 : ∀ p, ((follow oneTick s 5).port p).phase = .idle) (m p : Nat) :
    ((follow oneTick s (m + 5)).port p).phase = .idle := by
  induction m with
  | zero => exact h5 p
  | succ m ih => exact ih

/-- Once port 0 is free the schedule is fair and its operation has consulted its deadline in time. -/
theorem oneTick_fair {s : State} (d : Word) (h5 : ∀ p, ((follow oneTick s 5).port p).phase = .idle) :
    Fair oneTick (follow oneTick s) ∧ (∀ k, oneTick k ≠ .rst) ∧ ConsultedInTime oneTick (follow oneTick s) 0 0 d := by
  refine ⟨⟨fun n => ⟨n + 5, by omega, rfl⟩, fun p n hb => absurd (oneTick_idle h5 n p) (hb _ (by omega))⟩, ?_, ?_⟩
  · intro k
    match k with
    | 0 | 1 | 2 | 3 | 4 => decide
    | k + 5 => exact fun h => nomatch h
  · intro m _ hb _ _
    have hm : m < 5 := by
      by_contra h
      obtain ⟨k, rfl⟩ : ∃ k, m = k + 5 := ⟨m - 5, by omega⟩
      exact hb (k + 5) (by omega) (Nat.le_refl _) (oneTick_idle h5 k 0)
    have := elapsed_le oneTick 0 m
    omega

theorem timed_wait_idle (p : Nat) : ((follow oneTick (timed .waitW0 ⟨0x22, 1, 1, 0⟩) 5).port p).phase = .idle :=
  all_ports (P := fun _ q => q.phase = .idle) (a := (follow oneTick (timed .waitW0 ⟨0x22, 1, 1, 0⟩) 5).port 0)
    (b := (follow oneTick (timed .waitW0 ⟨0x22, 1, 1, 0⟩) 5).port 1) rfl (by decide) (by decide) (fun _ => rfl) p

theorem timed_popt_idle (p : Nat) : ((follow oneTick (timed .poptT0 ⟨0x32, 1, 0, 0⟩) 5).port p).phase = .idle :=
  all_ports (P := fun _ q => q.phase = .idle) (a := (follow oneTick (timed .poptT0 ⟨0x32, 1, 0, 0⟩) 5).port 0)
    (b := (follow oneTick (timed .poptT0 ⟨0x32, 1, 0, 0⟩) 5).port 1) rfl (by decide) (by decide) (fun _ => rfl) p

theorem timed_execution (l : Phase) (m : Cmd)
    (h : l = .waitW0 ∧ m = ⟨0x22, 1, 1, 0⟩ ∨ l = .poptT0 ∧ m = ⟨0x32, 1, 0, 0⟩) :
    Execution oneTick (follow oneTick (timed l m)) := by
  intro n
  apply follow_next
  rcases h with ⟨rfl, rfl⟩ | ⟨rfl, rfl⟩
  all_goals
    match n with
    | 0 | 1 | 2 | 3 | 4 => exact ⟨_, rfl⟩
    | n + 5 => exact ⟨_, rfl⟩

/-- The clause on fair executions, for both operations, across the wrap of the tick. -/
theorem witness_TimeoutNeverEarly_fair :
    (∃ run, Execution oneTick run ∧ Fair oneTick run ∧ (∀ k, oneTick k ≠ .rst) ∧ oneTick 0 = .micro 0 false ∧
      ((run 0).port 0).phase = .waitW0 ∧ ((run 0).port 0).arg1 = 1 ∧ (1 : Word) ≠ 0xFFFFFFFF ∧
      ConsultedInTime oneTick run 0 0 1) ∧
    (∃ run, Execution oneTick run ∧ Fair oneTick run ∧ (∀ k, oneTick k ≠ .rst) ∧ oneTick 0 = .micro 0 false ∧
      ((run 0).port 0).phase = .poptT0 ∧ ((run 0).port 0).arg0 = 1 ∧ (1 : Word) ≠ 0xFFFFFFFF ∧
      ConsultedInTime oneTick run 0 0 1) := by
  obtain ⟨f, r, c⟩ := oneTick_fair 1 timed_wait_idle
  obtain ⟨f', r', c'⟩ := oneTick_fair 1 timed_popt_idle
  exact ⟨⟨_, timed_execution _ _ (.inl ⟨rfl, rfl⟩), f, r, rfl, by decide, by decide, by decide, c⟩,
    ⟨_, timed_execution _ _ (.inr ⟨rfl, rfl⟩), f', r', rfl, by decide, by decide, by decide, c'⟩⟩

/-- Both operations consult their deadline at its very tick and end there, on 0/0/0. -/
theorem test_fair_wait_ends :
    (answer 0 (follow oneTick (timed .waitW0 ⟨0x22, 1, 1, 0⟩) 4), elapsed oneTick 0 4) = ((false, false, 0, true), 1) ∧
    (answer 0 (follow oneTick (timed .poptT0 ⟨0x32, 1, 0, 0⟩) 5), elapsed oneTick 0 5) = ((false, false, 0, true), 1) := by
  decide

theorem witness_NtfResetClears :
    (Cmd.mk 0x20 0 0 0).op = 0x20 ∧ (fly 0 ⟨0x20, 0, 0, 0⟩ .resetZ1 (raised 5 (base 0))).me.phase = .resetZ1 := by decide

theorem witness_NtfSetRaises :
    (Cmd.mk 0x21 9 0 0).op = 0x21 ∧ (fly 1 ⟨0x21, 9, 0, 0⟩ .setS1 (raised 2 (base 0))).me.phase = .setS1 ∧ 31 < 32 := by
  decide

/-- Each micro-step, and each answer of W1 and W2. -/
theorem witness_NtfWaitMicroSteps :
    let at' := fun (l : Phase) (n : Word) =>
      locals 0 0 0 ⟨10, false⟩ (fly 0 ⟨0x22, 3, 10, 0⟩ l (raised 2 (base n)))
    (Cmd.mk 0x22 3 10 0).op = 0x22 ∧ (at' .waitW0 0).me.phase = .waitW0 ∧
    ((at' .waitW1 0).me.phase = .waitW1 ∧ (at' .waitW1 0).raisedFlags &&& 3 ≠ 0 ∧
      (at' .waitW1 0).raisedFlags &&& 4 = 0) ∧
    ((at' .waitW2 10).me.phase = .waitW2 ∧ dlExpired (at' .waitW2 10).me.tDl (at' .waitW2 10).tick = true) ∧
    dlExpired (at' .waitW2 9).me.tDl (at' .waitW2 9).tick = false ∧ (at' .waitW3 0).me.phase = .waitW3 := by decide

theorem witness_YieldMovesPhaseOnly :
    (fly 0 ⟨0x22, 1, 10, 0⟩ .waitW3 (base 0)).me.phase = .waitW3 ∧
    (fly 0 ⟨0x32, 5, 0, 0⟩ .poptT2 (base 0)).me.phase = .poptT2 := by decide

theorem witness_WaitNeverClears :
    (fly 0 ⟨0x22, 3, 10, 0⟩ .waitW1 (raised 2 (base 0))).me.phase.opc = some .ntfWait := by decide

theorem witness_MatchBeatsTimeout :
    let at' := fun l : Phase => locals 0 0 0 ⟨210, false⟩ (fly 0 ⟨0x22, 1, 10, 0⟩ l (raised 1 (base 250)))
    (dlExpired (at' .waitW1).me.tDl (at' .waitW1).tick = true ∧ (at' .waitW1).raisedFlags &&& 1 ≠ 0 ∧
      (at' .waitW1).me.phase = .waitW1) ∧
    (dlExpired (at' .waitW2).me.tDl (at' .waitW2).tick = true ∧ (at' .waitW2).raisedFlags &&& 1 ≠ 0 ∧
      (at' .waitW2).me.phase = .waitW2) := by decide

theorem witness_ZeroTimeoutPolls :
    let s := fly 0 ⟨0x22, 2, 0, 0⟩ .waitW0 (raised 2 (base 7))
    s.me.phase = .waitW0 ∧ s.raisedFlags &&& 2 ≠ 0 ∧ s.raisedFlags &&& 1 = 0 := by decide

/-- At each of the three labels, another port's step coming. -/
theorem witness_EmptyUnlimitedWaitHangs : ∀ l ∈ [Phase.waitW1, .waitW2, .waitW3],
    let s := coming (.micro 0 false) (locals 0 0 0 ⟨4, true⟩ (fly 0 ⟨0x22, 0, 0xFFFFFFFF, 0⟩ l (raised 0xB (base 0))))
    s.wf = true ∧ ((s.port 0).phase = .waitW1 ∨ (s.port 0).phase = .waitW2 ∨ (s.port 0).phase = .waitW3) ∧
      (s.port 0).arg0 = 0 ∧ (s.port 0).tDl.unlimited = true ∧ s.nextInput ≠ .rst := by decide

theorem witness_SetsCommute :
    let s := fly 1 ⟨0x21, 2, 0, 0⟩ .setS1 (fly 0 ⟨0x21, 1, 0, 0⟩ .setS1 (base 0))
    0 ≠ 1 ∧ (s.port 0).phase = .setS1 ∧ (s.port 1).phase = .setS1 := by decide

theorem witness_ResetSetRace :
    let s := fly 1 ⟨0x21, 2, 0, 0⟩ .setS1 (fly 0 ⟨0x20, 0, 0, 0⟩ .resetZ1 (raised 1 (base 0)))
    0 ≠ 1 ∧ (s.port 0).phase = .resetZ1 ∧ (s.port 1).phase = .setS1 := by decide

theorem witness_HeldPortGoesRound :
    let wait := locals 0 0 0 ⟨10, false⟩ (fly 0 ⟨0x22, 1, 10, 0⟩ .waitW1 (raised 2 (base 9)))
    let popt := locals 0 0 0 ⟨10, false⟩ (fly 0 ⟨0x32, 10, 0, 0⟩ .poptC1 (ring 4 4 [] (base 9)))
    (dlExpired wait.me.tDl wait.tick = false ∧ wait.me.phase = .waitW1 ∧ wait.raisedFlags &&& 1 = 0) ∧
    (dlExpired popt.me.tDl popt.tick = false ∧ popt.me.phase = .poptC1 ∧ popt.writeIndex = popt.readIndex ∧
      popt.readIndex < popt.params.slots) := by decide

/-- The last index and the one before it. -/
theorem witness_NextIndexWraps : 4 < Params.slots ⟨32, 4, 2⟩ ∧ 3 < Params.slots ⟨32, 4, 2⟩ := by decide

/-- A full ring, an empty one, and one in between. -/
theorem witness_SizeCountsElements :
    let c : Params := ⟨32, 4, 2⟩
    (4 < c.slots ∧ 0 < c.slots ∧ ringFull c 4 0 = true ∧ ringEmpty 4 0 = false) ∧
    (ringEmpty 3 3 = true ∧ ringFull c 3 3 = false) ∧ ringFull c 1 4 = false ∧ ringEmpty 1 4 = false := by decide

/-- Each micro-step, at the last slot; P2 with room and without. -/
theorem witness_PushMicroSteps :
    let at' := fun l : Phase =>
      locals 4 0 0 ⟨0, false⟩ (fly 1 ⟨0x30, 0, 0, 0xFFFFFFFF⟩ l (ring 4 4 [] (base 0)))
    let full := locals 4 0 0 ⟨0, false⟩ (fly 1 ⟨0x30, 0, 0, 5⟩ .pushP2 (ring 4 0 [] (base 0)))
    (Cmd.mk 0x30 0 0 5).op = 0x30 ∧ 0xFFFFFFFF < 2 ^ (at' .pushP1).params.elemW ∧
    ((at' .pushP1).me.phase = .pushP1 ∧ (at' .pushP1).writeIndex < (at' .pushP1).params.slots) ∧
    ((at' .pushP2).me.phase = .pushP2 ∧ (at' .pushP2).readIndex < (at' .pushP2).params.slots ∧
      ((at' .pushP2).me.tW + 1) % (at' .pushP2).params.slots ≠ (at' .pushP2).readIndex) ∧
    (full.me.phase = .pushP2 ∧ full.readIndex < full.params.slots ∧
      (full.me.tW + 1) % full.params.slots = full.readIndex) ∧
    ((at' .pushP3).me.phase = .pushP3 ∧ (at' .pushP3).me.tW < (at' .pushP3).params.slots) ∧
    (at' .pushP4).me.phase = .pushP4 := by decide

theorem witness_PushAppends :
    let s := fly 1 ⟨0x30, 0, 0, 9⟩ .pushP1 (ring 4 1 [(1, 1), (2, 2), (3, 3)] (base 0))
    s.wf = true ∧ 9 < 2 ^ s.params.elemW ∧ s.me.phase = .pushP1 ∧ s.queue.length < s.params.capacity := by decide

theorem witness_PushOnFullFails :
    let s := fly 1 ⟨0x30, 0, 0, 5⟩ .pushP1 (ring 4 0 [(0, 1), (1, 2), (2, 3), (3, 4)] (base 0))
    s.wf = true ∧ s.me.phase = .pushP1 ∧ s.queue.length = s.params.capacity := by decide

/-- Each micro-step, at the last slot; C2 with an element and without. -/
theorem witness_PopMicroSteps :
    let at' := fun l : Phase =>
      locals 0 4 0xFFFFFFFF ⟨0, false⟩ (fly 0 ⟨0x31, 0, 0, 0⟩ l (ring 0 4 [(4, 0xFFFFFFFF)] (base 0)))
    let none' := locals 0 4 0 ⟨0, false⟩ (fly 0 ⟨0x31, 0, 0, 0⟩ .popC2 (ring 4 4 [] (base 0)))
    (Cmd.mk 0x31 0 0 0).op = 0x31 ∧
    ((at' .popC1).me.phase = .popC1 ∧ (at' .popC1).readIndex < (at' .popC1).params.slots) ∧
    ((at' .popC2).me.phase = .popC2 ∧ (at' .popC2).writeIndex < (at' .popC2).params.slots ∧
      (at' .popC2).me.tR ≠ (at' .popC2).writeIndex) ∧
    (none'.me.phase = .popC2 ∧ none'.writeIndex < none'.params.slots ∧ none'.me.tR = none'.writeIndex) ∧
    ((at' .popC3).me.phase = .popC3 ∧ (at' .popC3).me.tR < (at' .popC3).params.slots) ∧
    ((at' .popC4).me.phase = .popC4 ∧ (at' .popC4).me.tV < 2 ^ (at' .popC4).params.elemW) := by decide

theorem witness_PopTakesOldest :
    let s := fly 0 ⟨0x31, 0, 0, 0⟩ .popC1 (ring 1 4 [(0, 0x16), (4, 0x15)] (base 0))
    s.wf = true ∧ s.me.phase = .popC1 ∧ s.queue = [0x15, 0x16] := by decide

theorem witness_PopOnEmptyAnswers :
    let s := fly 0 ⟨0x31, 0, 0, 0⟩ .popC1 (ring 4 4 [] (base 0))
    s.wf = true ∧ s.me.phase = .popC1 ∧ s.queue = [] := by decide

/-- Each micro-step; C2 with an element and without; T1 expired and not. -/
theorem witness_PoptMicroSteps :
    let at' := fun (l : Phase) (n : Word) =>
      locals 0 4 0xFFFFFFFF ⟨15, false⟩ (fly 0 ⟨0x32, 5, 0, 0⟩ l (ring 0 4 [(4, 0xFFFFFFFF)] (base n)))
    let none' := locals 0 4 0 ⟨15, false⟩ (fly 0 ⟨0x32, 5, 0, 0⟩ .poptC2 (ring 4 4 [] (base 10)))
    ((Cmd.mk 0x32 5 0 0).op = 0x32 ∧ (at' .poptT0 10).me.phase = .poptT0) ∧
    ((at' .poptC1 10).me.phase = .poptC1 ∧ (at' .poptC1 10).readIndex < (at' .poptC1 10).params.slots) ∧
    ((at' .poptC2 10).me.phase = .poptC2 ∧ (at' .poptC2 10).writeIndex < (at' .poptC2 10).params.slots ∧
      (at' .poptC2 10).me.tR ≠ (at' .poptC2 10).writeIndex) ∧
    (none'.me.phase = .poptC2 ∧ none'.writeIndex < none'.params.slots ∧ none'.me.tR = none'.writeIndex) ∧
    ((at' .poptC3 10).me.phase = .poptC3 ∧ (at' .poptC3 10).me.tR < (at' .poptC3 10).params.slots) ∧
    ((at' .poptC4 10).me.phase = .poptC4 ∧ (at' .poptC4 10).me.tV < 2 ^ (at' .poptC4 10).params.elemW) ∧
    ((at' .poptT1 15).me.phase = .poptT1 ∧ dlExpired (at' .poptT1 15).me.tDl (at' .poptT1 15).tick = true) ∧
    dlExpired (at' .poptT1 14).me.tDl (at' .poptT1 14).tick = false ∧ (at' .poptT2 10).me.phase = .poptT2 := by decide

theorem witness_PoptZeroIsPop :
    let none' := fly 0 ⟨0x32, 0, 0, 0⟩ .poptT0 (base 77)
    let some' := fly 0 ⟨0x32, 0, 0, 0⟩ .poptT0 (ring 1 0 [(0, 0x55)] (base 77))
    (none'.wf = true ∧ none'.me.phase = .poptT0 ∧ none'.queue = []) ∧
    (some'.wf = true ∧ some'.me.phase = .poptT0 ∧ some'.queue = [0x55]) := by decide

/-- Each micro-step, and both orders. -/
theorem witness_ClearEitherOrder :
    let at' := fun l : Phase => fly 0 ⟨0x33, 0, 0, 0⟩ l (ring 3 1 [] (base 0))
    (Cmd.mk 0x33 0 0 0).op = 0x33 ∧ ((at' .clearK).me.phase = .clearK ∧ (at' .clearK).swap = false) ∧
    (((at' .clearK).turn 0 true).me.phase = .clearK ∧ ((at' .clearK).turn 0 true).swap = true) ∧
    (at' .clearK1).me.phase = .clearK1 ∧ (at' .clearK2).me.phase = .clearK2 := by decide

/-- Each micro-step, and both orders, at the last index. -/
theorem witness_SizeEitherOrder :
    let at' := fun l : Phase => fly 0 ⟨0x34, 0, 0, 0⟩ l (ring 0 4 [] (base 0))
    (Cmd.mk 0x34 0 0 0).op = 0x34 ∧
    ((at' .sizeQ).writeIndex < (at' .sizeQ).params.slots ∧ (at' .sizeQ).readIndex < (at' .sizeQ).params.slots) ∧
    ((at' .sizeQ).me.phase = .sizeQ ∧ (at' .sizeQ).swap = false) ∧
    (((at' .sizeQ).turn 0 true).me.phase = .sizeQ ∧ ((at' .sizeQ).turn 0 true).swap = true) ∧
    (at' .sizeQ1).me.phase = .sizeQ1 ∧ (at' .sizeQ2).me.phase = .sizeQ2 := by decide

theorem witness_CapAnswersCapacity :
    let s := fly 0 ⟨0x35, 0, 0, 0⟩ .capA1 (base 0)
    (Cmd.mk 0x35 0 0 0).op = 0x35 ∧ s.me.phase = .capA1 ∧ s.params.capacity < 2 ^ s.params.dataW := by decide

theorem witness_StepRunsDecoded :
    let s := coming (.micro 1 true) (fly 1 ⟨0x21, 2, 0, 0⟩ .setS1 (base 0))
    s.nextInput = .micro 1 true ∧ 1 < s.params.nports ∧ (s.port 1).phase ≠ .idle ∧ (s.port 1).phase ≠ .reservedX1 ∧
      decode? (s.port 1).cmd = some (.ntfSet 2) := by decide

theorem witness_ReservedOpcodeAnswersIll :
    let s := coming (.micro 0 false) (fly 0 ⟨0xFF, 0, 0, 0⟩ .reservedX1 (base 0))
    Opc.ofByte 0x36 = none ∧ s.nextInput = .micro 0 false ∧ 0 < s.params.nports ∧ (s.port 0).phase = .reservedX1 := by
  decide

/-- On an idle port with each opcode, and a reserved one. -/
theorem witness_IssueLatchesCommand :
    (∀ b ∈ [0x10, 0x11, 0x20, 0x21, 0x22, 0x30, 0x31, 0x32, 0x33, 0x34, 0x35, 0x36],
      let s := coming (.issue 1 ⟨BitVec.ofNat 8 b, 1, 2, 0xFFFFFFFF⟩) (base 0)
      s.nextInput = .issue 1 ⟨BitVec.ofNat 8 b, 1, 2, 0xFFFFFFFF⟩ ∧ 1 < s.params.nports ∧
        s.ports.length = s.params.nports ∧ 0xFFFFFFFF < 2 ^ s.params.elemW ∧ (s.port 1).phase = .idle) ∧
    decode? ⟨0x36, 1, 2, 0xFFFFFFFF⟩ = none := by decide

theorem witness_OnlyTheTickSourceMovesTick :
    (coming .tick (base 0xFFFFFFFF)).nextInput = .tick ∧
    let s := coming (.micro 0 false) (fly 0 ⟨0x35, 0, 0, 0⟩ .capA1 (base 0))
    s.nextInput ≠ .tick ∧ look (·.tick) (step s) = some 0 := by decide

/-- A step that changes each register in turn. -/
theorem witness_RegisterWriters :
    let go := fun (m : Cmd) (l : Phase) =>
      step (coming (.micro 0 false) (locals 3 1 7 ⟨0, false⟩ (fly 0 m l (ring 3 1 [(1, 5), (2, 6)] (raised 1 (base 9))))))
    look (·.raisedFlags) (go ⟨0x21, 2, 0, 0⟩ .setS1) = some 3 ∧ look (·.writeIndex) (go ⟨0x30, 0, 0, 8⟩ .pushP4) = some 4 ∧
    look (·.readIndex) (go ⟨0x31, 0, 0, 0⟩ .popC4) = some 2 ∧
    look (fun t => Memory.read t.storage 3) (go ⟨0x30, 0, 0, 8⟩ .pushP3) = some (some 8) ∧
    look (fun t => (t.port 0).dl) (go ⟨0x10, 3, 0, 0⟩ .newN1) = some ⟨12, false⟩ := by decide

theorem witness_OtherPortsUntouched :
    let s := coming (.micro 0 false) (fly 0 ⟨0x35, 0, 0, 0⟩ .capA1 (fly 1 ⟨0x21, 2, 0, 0⟩ .setS1 (base 0)))
    look (·.tick) (step s) = some 0 ∧ s.nextInput ≠ .rst ∧ s.nextInput = .micro 0 false := by decide

theorem witness_HardwareResetAbandons :
    let s := coming .rst (fly 0 ⟨0x22, 1, 5, 0⟩ .waitW2 (base 3))
    let s' := coming (.micro 0 false) (fly 0 ⟨0x35, 0, 0, 0⟩ .capA1 (base 0))
    s.nextInput = .rst ∧ (s'.port 0).phase ≠ .idle ∧ look (fun t => (t.port 0).phase) (step s') = some .idle := by decide

theorem witness_ResetMeetsInvariants :
    Params.ok ⟨32, 4, 2⟩ = true ∧ (Roles.mk 0 1 0 [1]).producer ≠ (Roles.mk 0 1 0 [1]).consumer := by decide

theorem witness_WellFormedStepsForever :
    (coming (.micro 1 false) (locals 4 1 0 ⟨0, false⟩ (fly 1 ⟨0x30, 0, 0, 9⟩ .pushP3
      (ring 4 1 [(1, 1), (2, 2), (3, 3)] (base 0))))).wf = true := by decide

/-- A busy port offered a command, an idle port's turn, and a port the block does not have. -/
theorem witness_DisabledInputsChangeNothing :
    let busy := coming (.issue 1 ⟨0x31, 0, 0, 0⟩) (fly 1 ⟨0x21, 2, 0, 0⟩ .setS1 (base 0))
    let idle := coming (.micro 0 false) (base 0)
    (1 < busy.params.nports ∧ busy.nextInput = .issue 1 ⟨0x31, 0, 0, 0⟩ ∧ (busy.port 1).phase ≠ .idle) ∧
    (0 < idle.params.nports ∧ idle.nextInput = .micro 0 false ∧ (idle.port 0).phase = .idle) ∧
    ((base 0).params.nports ≤ 2 ∧ (coming (.micro 2 false) (base 0)).nextInput = .micro 2 false ∧
      (coming (.issue 2 ⟨0x31, 0, 0, 0⟩) (base 0)).nextInput = .issue 2 ⟨0x31, 0, 0, 0⟩) := by decide

/-- A well-formed state, with an operation that may hold its port and one that may not. -/
theorem witness_MicroStepsEnabledAndBounded :
    let wait := fly 0 ⟨0x22, 1, 5, 0⟩ .waitW1 (base 0)
    let push := fly 1 ⟨0x30, 0, 0, 9⟩ .pushP1 (base 0)
    (wait.wf = true ∧ wait.me.phase.opc = some (Instr.ntfWait 1 5).opc) ∧
    (push.wf = true ∧ push.me.phase.opc = some (Instr.rbPush 9).opc ∧ mayHold (.rbPush 9) = false) := by decide

theorem witness_NotInFlightRefused :
    (fly 0 ⟨0x21, 1, 0, 0⟩ .setS1 (base 0)).me.phase.opc ≠ some Instr.rbCap.opc := by decide

/-- Just outside the storage, for each of the three. -/
theorem witness_IndexOutsideStorageRefused :
    let at' := fun (op : Byte) (l : Phase) => locals 5 5 0 ⟨0, false⟩ (fly 0 ⟨op, 0, 0, 0⟩ l (base 0))
    ((at' 0x30 .pushP3).me.phase = .pushP3 ∧ (at' 0x30 .pushP3).params.slots ≤ (at' 0x30 .pushP3).me.tW) ∧
    ((at' 0x31 .popC3).me.phase = .popC3 ∧ (at' 0x31 .popC3).params.slots ≤ (at' 0x31 .popC3).me.tR) ∧
    ((at' 0x32 .poptC3).me.phase = .poptC3 ∧ (at' 0x32 .poptC3).params.slots ≤ (at' 0x32 .poptC3).me.tR) := by decide

theorem witness_FailuresChangeNothingShared :
    look (fun t => (t.me.phase, t.me.rspOk)) (exec .rbPop (locals 0 4 0 ⟨0, false⟩
      (fly 0 ⟨0x31, 0, 0, 0⟩ .popC2 (ring 4 4 [] (base 0))))) = some (.idle, false) := by decide

/-- A push at P4 and a pop at C4 in flight on a ring of one element, the push's turn. -/
def busyRing : State :=
  coming (.micro 1 false) (fly 1 ⟨0x30, 0, 0, 9⟩ .pushP4 ((locals 0 4 7 ⟨0, false⟩ (fly 0 ⟨0x31, 0, 0, 0⟩ .popC4
    (ring 0 4 [(0, 9), (4, 7)] (base 0))))))

theorem witness_RingLinearises : RingKept ⟨0, 1, 0, []⟩ busyRing ∧ busyRing.ringDisciplined ⟨0, 1, 0, []⟩ = true := by
  refine ⟨⟨by decide, by decide, ?_, ?_, by decide, ?_, ?_, ?_, ?_, ?_, ?_, ?_, ?_, ?_⟩, by decide⟩
  · exact all_ports (P := fun p q => q.phase.pushing = true → p = 1) rfl (by decide) (by decide)
      (fun _ h => absurd h (by decide))
  · exact all_ports (P := fun p q => q.phase.popping = true → p = 0) rfl (by decide) (by decide)
      (fun _ h => absurd h (by decide))
  · exact all_ports (P := fun _ q => q.phase = .clearK1 → busyRing.readIndex = 0) rfl (by decide) (by decide)
      (fun _ => by decide)
  · exact all_ports (P := fun _ q => q.phase = .clearK2 → busyRing.writeIndex = 0) rfl (by decide) (by decide)
      (fun _ => by decide)
  · intro _ k hk
    have h1 : busyRing.count = 1 := by decide
    obtain rfl : k = 0 := by omega
    decide
  · exact all_ports (P := fun _ q => q.phase = .pushP2 ∨ q.phase = .pushP3 ∨ q.phase = .pushP4 →
      q.tW = busyRing.writeIndex) rfl (by decide) (by decide) (fun _ => by decide)
  · exact all_ports (P := fun _ q => q.phase = .pushP3 ∨ q.phase = .pushP4 →
      ringFull busyRing.params busyRing.writeIndex busyRing.readIndex = false) rfl (by decide) (by decide)
      (fun _ => by decide)
  · exact all_ports (P := fun _ q => q.phase = .pushP4 →
      Memory.read busyRing.storage busyRing.writeIndex = some q.wdata) rfl (by decide) (by decide) (fun _ => by decide)
  · exact all_ports (P := fun _ q => q.phase = .popC2 ∨ q.phase = .popC3 ∨ q.phase = .popC4 ∨
      q.phase = .poptC2 ∨ q.phase = .poptC3 ∨ q.phase = .poptC4 → q.tR = busyRing.readIndex) rfl (by decide) (by decide)
      (fun _ => by decide)
  · exact all_ports (P := fun _ q => q.phase = .popC3 ∨ q.phase = .popC4 ∨ q.phase = .poptC3 ∨ q.phase = .poptC4 →
      ringEmpty busyRing.writeIndex busyRing.readIndex = false) rfl (by decide) (by decide) (fun _ => by decide)
  · exact all_ports (P := fun _ q => q.phase = .popC4 ∨ q.phase = .poptC4 → q.tV = busyRing.slot busyRing.readIndex) rfl
      (by decide) (by decide) (fun _ => by decide)

theorem witness_FifoOverRuns : RingKept ⟨0, 1, 0, []⟩ busyRing ∧ quietRun ⟨0, 1, 0, []⟩ 1 busyRing :=
  ⟨witness_RingLinearises.1, by decide, by decide, trivial⟩

/-- The owner waits, its deadline is created on port 1, and an interrupt context polls. -/
def keptRoles : State :=
  coming (.issue 1 ⟨0x11, 0, 0, 0⟩) ((fly 1 ⟨0x32, 0, 0, 0⟩ .idle (fly 0 ⟨0x22, 1, 5, 0⟩ .waitW1 (base 0))).updMe
    fun q => { q with dlCreated := true })

theorem witness_RolesKeptByStep :
    keptRoles.wf = true ∧ RolesKept ⟨0, 1, 0, [1]⟩ keptRoles ∧ keptRoles.waitDisciplined ⟨0, 1, 0, [1]⟩ = true ∧
      look (fun t => (t.port 1).phase) (step keptRoles) = some .expiredE1 := by
  refine ⟨by decide, ⟨?_, ?_, ?_⟩, by decide, by decide⟩
  · exact all_ports (P := fun p q => q.phase.opc = some .ntfWait ∨ q.phase.opc = some .ntfReset → p = 0) rfl (by decide)
      (by decide) (fun _ h => absurd h (by decide))
  · exact all_ports (P := fun _ q => q.phase = .expiredE1 → q.dlCreated = true) rfl (by decide) (by decide)
      (fun _ => by decide)
  · exact all_ports (P := fun p q => p ∈ [1] → q.phase.opc ≠ some .ntfWait ∧
      (q.phase.opc = some .rbPopt → q.arg0 = 0)) rfl (by decide) (by decide) (fun _ _ => by decide)

/-- What holds of a ring with nothing but RB.SIZE in flight. -/
theorem kept_of_quiet {r : Roles} {s : State} (hwf : s.wf = true) (hr : r.producer ≠ r.consumer)
    (hq : ∀ q, (s.port q).phase = .idle ∨ (s.port q).phase = .sizeQ ∨ (s.port q).phase = .sizeQ1 ∨
      (s.port q).phase = .sizeQ2) (hc : s.clearBusy = false)
    (hlive : ∀ k, k < s.count → Memory.read s.storage ((s.readIndex + k) % s.params.slots) ≠ none) :
    RingKept r s := by
  refine ⟨hwf, hr, ?_, ?_, fun h => absurd (hc.symm.trans h) (by decide), ?_, ?_, fun _ => hlive,
    ?_, ?_, ?_, ?_, ?_, ?_⟩ <;>
    (intro q h; rcases hq q with h' | h' | h' | h' <;> rw [h'] at h <;> exact absurd h (by decide))

/-- An RB.SIZE in flight on port `p` of a ring of two elements, with its loads so far and a move to come. -/
def sizing (i : Input) (p : Nat) (l : Phase) (w r : Nat) : State :=
  coming i (locals w r 0 ⟨0, false⟩ (fly p ⟨0x34, 0, 0, 0⟩ l (ring 1 4 [(0, 9), (4, 7)] (base 0))))

/-- The premises of the statement, as one check. -/
def sizingOk (s : State) : Bool :=
  s.wf && !s.clearBusy && !s.emptying && s.ringDisciplined ⟨0, 1, 0, []⟩ && s.count == 2 &&
    (Memory.read s.storage (s.readIndex % s.params.slots)).isSome &&
    (Memory.read s.storage ((s.readIndex + 1) % s.params.slots)).isSome &&
    s.ports.all (fun q => q.phase == .idle || q.phase.opc == some .rbSize) && (look (·.tick) (step s)).isSome

theorem sizing_kept {s : State} {a b : Port} (hs : s.ports = [a, b])
    (h : sizingOk s = true) :
    RingKept ⟨0, 1, 0, []⟩ s ∧ s.ringDisciplined ⟨0, 1, 0, []⟩ = true ∧ s.emptying = false ∧
      ∃ t, step s = .next t := by
  simp only [sizingOk, Bool.and_eq_true, Bool.not_eq_true', beq_iff_eq, hs, List.all_cons, List.all_nil, Bool.or_eq_true,
    and_true] at h
  obtain ⟨⟨⟨⟨⟨⟨⟨⟨hwf, hc⟩, he⟩, hd⟩, hn⟩, h0⟩, h1⟩, ha, hb⟩, ht⟩ := h
  have quiet : ∀ q : Port, q.phase = .idle ∨ q.phase.opc = some .rbSize →
      q.phase = .idle ∨ q.phase = .sizeQ ∨ q.phase = .sizeQ1 ∨ q.phase = .sizeQ2 := by
    intro q hq
    cases hp : q.phase <;> rw [hp] at hq <;> revert hq <;> decide
  refine ⟨kept_of_quiet hwf (by decide) ?_ hc ?_, hd, he, ?_⟩
  · exact all_ports (P := fun _ q => q.phase = .idle ∨ q.phase = .sizeQ ∨ q.phase = .sizeQ1 ∨ q.phase = .sizeQ2) hs
      (quiet a ha) (quiet b hb) (fun _ => .inl rfl)
  · intro k hk
    rw [hn] at hk
    obtain rfl | rfl : k = 0 ∨ k = 1 := by omega
    · exact Option.isSome_iff_ne_none.1 (by simpa using h0)
    · exact Option.isSome_iff_ne_none.1 h1
  · cases hst : step s with
    | next t => exact ⟨t, rfl⟩
    | fault _ => rw [hst] at ht; cases ht
    | refused _ => rw [hst] at ht; cases ht

/-- Each clause, for the producer (port 1) and the consumer (port 0): the first load in both orders, each second label
before another agent's step and before its own, the value loaded first being old where that is allowed. -/
def sizings : List (Input × Nat × Phase × Nat × Nat) :=
  [(.micro 1 false, 1, .sizeQ, 0, 0), (.micro 1 true, 1, .sizeQ, 0, 0), (.tick, 1, .sizeQ2, 1, 0),
    (.micro 1 false, 1, .sizeQ2, 1, 0), (.tick, 1, .sizeQ1, 0, 3), (.micro 1 false, 1, .sizeQ1, 0, 3)] ++
  [(.micro 0 true, 0, .sizeQ, 0, 0), (.micro 0 false, 0, .sizeQ, 0, 0), (.tick, 0, .sizeQ1, 0, 4),
    (.micro 0 false, 0, .sizeQ1, 0, 4), (.tick, 0, .sizeQ2, 0, 0), (.micro 0 false, 0, .sizeQ2, 0, 0)]

/-- Each state of the list meets the statement's premises; its clause's own are read off the list. -/
theorem witness_SizeExactForOwners : ∀ e ∈ sizings,
    let s := sizing e.1 e.2.1 e.2.2.1 e.2.2.2.1 e.2.2.2.2
    (RingKept ⟨0, 1, 0, []⟩ s ∧ s.ringDisciplined ⟨0, 1, 0, []⟩ = true ∧ s.emptying = false ∧ ∃ t, step s = .next t) ∧
      s.nextInput = e.1 ∧ (s.port e.2.1).phase = e.2.2.1 ∧ (s.port e.2.1).tW = e.2.2.2.1 ∧
      (s.port e.2.1).tR = e.2.2.2.2 ∧ s.writeIndex = 1 ∧ s.readIndex = 4 := by
  intro e he
  have hok : ∀ e ∈ sizings, (e.2.1 = 0 ∨ e.2.1 = 1) ∧
      sizingOk (sizing e.1 e.2.1 e.2.2.1 e.2.2.2.1 e.2.2.2.2) = true := by decide
  obtain ⟨hp, hk⟩ := hok e he
  obtain ⟨i, p, l, w, r⟩ := e
  rcases hp with hp | hp <;> (dsimp only at hp; subst hp; exact ⟨sizing_kept rfl hk, rfl, rfl, rfl, rfl, rfl, rfl⟩)

/-- R189 by hand: the consumer loaded write_index 0 while one element was held; the producer's push since then is not
counted. The producer loaded read_index 3 while three were held; the pop since then is not. -/
theorem test_size_orders :
    [sizing (.micro 0 false) 0 .sizeQ2 0 0, sizing (.micro 1 false) 1 .sizeQ1 0 3].map
      (fun s => look (fun t => ((t.port 0).rspData, (t.port 1).rspData)) (step s)) = [some (1, 0), some (0, 3)] := by
  decide

/-- With elements below the written slot, at slot 0, and at the last slot, where the index wraps. -/
theorem witness_ClearRaceResurrects : ∀ w ∈ [(2, 0), (0, 3), (4, 2)],
    let s := fly 1 ⟨0x30, 0, 0, 9⟩ .pushP1 (fly 0 ⟨0x33, 0, 0, 0⟩ .clearK (ring w.1 w.2 [(0, 0xA), (1, 0xB)] (base 0)))
    s.wf = true ∧ 9 < 2 ^ s.params.elemW ∧ 1 ≠ 0 ∧ (s.port 1).phase = .pushP1 ∧ (s.port 0).phase = .clearK ∧
      s.queue.length < s.params.capacity := by decide

/-- 95_test_vectors.md P6: the cleared elements come back; by R191's micro-steps, at slot 0 only the value is there and at
the last slot nothing is. -/
theorem test_clear_race : [(2, 0), (0, 3), (4, 2)].map (fun w => look (·.queue)
    (turns [(1, false, .rbPush 9), (1, false, .rbPush 9), (1, false, .rbPush 9), (0, false, .rbClear), (0, false, .rbClear),
        (1, false, .rbPush 9)]
      (fly 1 ⟨0x30, 0, 0, 9⟩ .pushP1 (fly 0 ⟨0x33, 0, 0, 0⟩ .clearK (ring w.1 w.2 [(0, 0xA), (1, 0xB)] (base 0)))))) =
    [some [0xA, 0xB, 9], some [9], some []] := by decide

theorem witness_TwoProducersLoseElement :
    let s := fly 1 ⟨0x30, 0, 0, 0xBB⟩ .pushP1 (fly 0 ⟨0x30, 0, 0, 0xAA⟩ .pushP1 (base 0))
    s.wf = true ∧ 0xAA < 2 ^ s.params.elemW ∧ 0xBB < 2 ^ s.params.elemW ∧ 0 ≠ 1 ∧ (s.port 0).phase = .pushP1 ∧
      (s.port 1).phase = .pushP1 ∧ s.queue.length < s.params.capacity := by decide

end Sys2Proof.Tests
end

section
/-! The tick (10_state.md R22): the TickSource's step, and that no other step of the machine writes `TICK`. -/

namespace Sys2Proof.Machine

/-- The step of the TickSource, as an equation. -/
theorem step_of_tick {s : State} (h : s.nextInput = .tick) : step s = .next s.begin.tickStep := by
  simp [step, h, inputStep]

theorem tickStep_tick_toNat (s : State) : s.tickStep.tick.toNat = (s.tick.toNat + 1) % 2 ^ 32 := by
  rw [State.tickStep_tick, BitVec.toNat_add]
  rfl

/-- The TickSource's step touches none of the block's shared registers but `TICK` (10_state.md R20). -/
theorem begin_tickStep_sharedSame (s : State) : SharedSame s s.begin.tickStep := by
  simp [SharedSame, FlagsSame, IndicesSame, StorageSame]

theorem issueStep_tick {p : Nat} {m : Cmd} {s t : State} (h : issueStep p m s = .next t) : t.tick = s.tick := by
  obtain ⟨-, ⟨-, rfl⟩ | ⟨-, rfl⟩⟩ := issueStep_cases h
  · exact State.setPort_tick s p _
  · rfl

/-- No operation of the block writes `TICK`. -/
theorem exec_tick {i : Instr} {s t : State} (h : exec i s = .next t) : t.tick = s.tick := by
  obtain ⟨-, -, htick, -⟩ := exec_elsewhere h
  exact htick

theorem microStep_tick {p : Nat} {b : Bool} {s t : State} (h : microStep p b s = .next t) : t.tick = s.tick := by
  obtain ⟨-, ⟨-, rfl⟩ | ⟨-, rfl⟩ | ⟨i, -, -, -, hx⟩⟩ := microStep_cases h
  · rfl
  · simp
  · exact (exec_tick hx).trans (State.turn_tick s p b)

/-- Every step that is not the TickSource's, the reset among them, leaves `TICK`. -/
theorem step_tick_of_ne_tick {s t : State} (hi : s.nextInput ≠ .tick) (h : step s = .next t) : t.tick = s.tick := by
  rcases step_cases h with ⟨htick, -⟩ | ⟨-, rfl⟩ | ⟨p, m, -, hs⟩ | ⟨p, b, -, hs⟩
  · exact absurd htick hi
  · simp
  · exact (issueStep_tick hs).trans (State.begin_tick s)
  · exact (microStep_tick hs).trans (State.begin_tick s)

/-- Settles O44: the TickSource's step is computed; the other steps leave `TICK` by cases on the input, an operation's
micro-step by the frame of `exec`. -/
theorem onlyTheTickSourceMovesTick : Obligations.OnlyTheTickSourceMovesTick := by
  refine ⟨fun s hi => ⟨s.begin.tickStep, step_of_tick hi, ?_, ?_, begin_tickStep_sharedSame s⟩,
    fun _ _ => step_tick_of_ne_tick⟩
  · rw [tickStep_tick_toNat, State.begin_tick]
  · simp

end Sys2Proof.Machine
end

section
/-! The encoding (30_encoding.md R91 to R94, R103): which bytes name an operation, what the decoder answers by the
opcode byte, and the arithmetic of the canonical command word. -/

namespace Sys2Proof

/-! ## Opcode bytes -/

/-- The opcode map lists every operation under its byte (30_encoding.md R92, R93). -/
theorem Opc.ofByte_byte (o : Opc) : Opc.ofByte o.byte = some o := by
  cases o <;> rfl

/-- The numbers of the eleven opcode bytes (30_encoding.md R93). -/
def opcodeBytes : List Nat := opcodeMap.map (·.byte.toNat)

/-- A byte is reserved exactly when no row of the opcode map has it. -/
theorem Opc.ofByte_eq_none {b : Byte} : Opc.ofByte b = none ↔ b.toNat ∉ opcodeBytes := by
  simp [Opc.ofByte, opcodeBytes, BitVec.toNat_eq]

/-- The five ranges of reserved opcode bytes (30_encoding.md R94). -/
def InReservedRange (n : Nat) : Prop :=
  n ≤ 0x0F ∨ (0x12 ≤ n ∧ n ≤ 0x1F) ∨ (0x23 ≤ n ∧ n ≤ 0x2F) ∨ (0x36 ≤ n ∧ n ≤ 0x3F) ∨ 0x40 ≤ n

/-- The bytes between the rows of the opcode map are the five ranges (30_encoding.md R94). -/
theorem Opc.ofByte_eq_none_iff_inReservedRange {b : Byte} : Opc.ofByte b = none ↔ InReservedRange b.toNat := by
  have hbytes : opcodeBytes = [0x10, 0x11, 0x20, 0x21, 0x22, 0x30, 0x31, 0x32, 0x33, 0x34, 0x35] := rfl
  simp only [Opc.ofByte_eq_none, hbytes, List.mem_cons, List.not_mem_nil, or_false, InReservedRange]
  omega

/-! ## The decoder -/

theorem decode_of_ofByte {m : Cmd} {o : Opc} (h : Opc.ofByte m.op = some o) : decode m = .ok (o.instr m) := by
  simp [decode, h]

/-- A byte that names an operation decodes to it, with the operand signals its format uses. -/
theorem decode_byte (o : Opc) (a b : Word) (v : Elem) : decode ⟨o.byte, a, b, v⟩ = .ok (o.instr ⟨o.byte, a, b, v⟩) :=
  decode_of_ofByte (Opc.ofByte_byte o)

/-- Only `cmd_op` decides a refusal (30_encoding.md R98). -/
theorem decode_eq_error_iff {m : Cmd} : decode m = .error (.reservedOpcode m.op) ↔ Opc.ofByte m.op = none := by
  cases h : Opc.ofByte m.op <;> simp [decode, h]

theorem decode?_eq_none_iff {m : Cmd} : decode? m = none ↔ Opc.ofByte m.op = none := by
  cases h : Opc.ofByte m.op <;> simp [decode?, decode, h, Except.toOption]

/-! ## Counting the reserved bytes -/

/-- Whether the decoder refuses the opcode byte numbered `n`. -/
def isReservedByte (n : Nat) : Bool := (decode? ⟨BitVec.ofNat 8 n, 0, 0, 0⟩).isNone

theorem isReservedByte_iff {n : Nat} (h : n < 256) : isReservedByte n = true ↔ n ∉ opcodeBytes := by
  rw [isReservedByte, Option.isNone_iff_eq_none, decode?_eq_none_iff, Opc.ofByte_eq_none, BitVec.toNat_ofNat,
    Nat.mod_eq_of_lt h]

/-- The bytes that are not reserved are the eleven of the opcode map, in some order. -/
theorem filter_not_isReservedByte_perm : ((List.range 256).filter fun n => !isReservedByte n).Perm opcodeBytes := by
  have hsmall : ∀ n ∈ opcodeBytes, n < 256 := by decide
  refine (List.perm_ext_iff_of_nodup (List.nodup_range.filter _) (by decide)).2 fun n => ?_
  rw [List.mem_filter, List.mem_range, Bool.not_eq_true', ← Bool.not_eq_true]
  constructor
  · rintro ⟨hn, hr⟩
    exact not_not.1 (mt (isReservedByte_iff hn).2 hr)
  · intro hn
    exact ⟨hsmall n hn, fun hr => (isReservedByte_iff (hsmall n hn)).1 hr hn⟩

/-- The reserved bytes are the 256 bytes without those eleven (30_encoding.md R94). -/
theorem length_reservedBytes : ((List.range 256).filter isReservedByte).length = 245 := by
  have htotal := List.length_eq_length_filter_add (l := List.range 256) isReservedByte
  have hnamed : ((List.range 256).filter fun n => !isReservedByte n).length = 11 :=
    filter_not_isReservedByte_perm.length_eq
  rw [List.length_range, hnamed] at htotal
  omega

/-! ## Encoding and decoding -/

/-- The decoder reads every encoded instruction back, assembled from the laws of the constructors. -/
theorem decode_encode (i : Instr) : decode (encode i) = .ok i := by
  have h : Laws.Encodes.Statement i := by
    cases i with
    | dlNew d => exact Laws.Encodes.dlNew d
    | dlExpired => exact Laws.Encodes.dlExpired
    | ntfReset => exact Laws.Encodes.ntfReset
    | ntfSet f => exact Laws.Encodes.ntfSet f
    | ntfWait f t => exact Laws.Encodes.ntfWait f t
    | rbPush v => exact Laws.Encodes.rbPush v
    | rbPop => exact Laws.Encodes.rbPop
    | rbPopt t => exact Laws.Encodes.rbPopt t
    | rbClear => exact Laws.Encodes.rbClear
    | rbSize => exact Laws.Encodes.rbSize
    | rbCap => exact Laws.Encodes.rbCap
  exact h.1

/-! ## The canonical command word -/

/-- The element signal of an encoded instruction fits: it is the operand of RB.PUSH, or 0. -/
theorem encode_wdata_lt {c : Params} {i : Instr} (h : i.wf c = true) : (encode i).wdata < 2 ^ c.elemW := by
  cases i with
  | rbPush v => exact of_decide_eq_true h
  | _ => exact Nat.two_pow_pos _

/-- The word above its element field holds the three other fields. -/
theorem packCW_div {c : Params} {m : Cmd} (h : m.wdata < 2 ^ c.elemW) :
    packCW c m / 2 ^ c.elemW = (m.op.toNat * 2 ^ 32 + m.arg0.toNat) * 2 ^ 32 + m.arg1.toNat := by
  rw [packCW, Nat.mul_comm, Nat.mul_add_div (Nat.two_pow_pos _), Nat.div_eq_of_lt h, Nat.add_zero]

theorem packCW_mod {c : Params} {m : Cmd} (h : m.wdata < 2 ^ c.elemW) : packCW c m % 2 ^ c.elemW = m.wdata := by
  rw [packCW, Nat.mul_comm, Nat.mul_add_mod, Nat.mod_eq_of_lt h]

theorem unpackCW_op (c : Params) (w : Nat) : (unpackCW c w).op.toNat = w / 2 ^ c.elemW / 2 ^ 64 % 2 ^ 8 := by
  simp [unpackCW, Nat.shiftRight_eq_div_pow, Nat.pow_add', Nat.div_div_eq_div_mul]

theorem unpackCW_arg0 (c : Params) (w : Nat) : (unpackCW c w).arg0.toNat = w / 2 ^ c.elemW / 2 ^ 32 % 2 ^ 32 := by
  simp [unpackCW, Nat.shiftRight_eq_div_pow, Nat.pow_add', Nat.div_div_eq_div_mul]

theorem unpackCW_arg1 (c : Params) (w : Nat) : (unpackCW c w).arg1.toNat = w / 2 ^ c.elemW % 2 ^ 32 := by
  simp [unpackCW, Nat.shiftRight_eq_div_pow]

/-- A command whose element fits makes a word of `72 + ELEM_W` bits (30_encoding.md R91). -/
theorem packCW_lt {c : Params} {m : Cmd} (h : m.wdata < 2 ^ c.elemW) : packCW c m < 2 ^ (72 + c.elemW) := by
  rw [Nat.pow_add, ← Nat.div_lt_iff_lt_mul (Nat.two_pow_pos _), packCW_div h]
  have hop := m.op.isLt
  have harg0 := m.arg0.isLt
  have harg1 := m.arg1.isLt
  omega

/-- The fields of a packed command are the command's, where its element fits. -/
theorem unpackCW_packCW {c : Params} {m : Cmd} (h : m.wdata < 2 ^ c.elemW) : unpackCW c (packCW c m) = m := by
  have hop : (unpackCW c (packCW c m)).op = m.op := by
    apply BitVec.eq_of_toNat_eq
    rw [unpackCW_op, packCW_div h]
    omega
  have harg0 : (unpackCW c (packCW c m)).arg0 = m.arg0 := by
    apply BitVec.eq_of_toNat_eq
    rw [unpackCW_arg0, packCW_div h]
    omega
  have harg1 : (unpackCW c (packCW c m)).arg1 = m.arg1 := by
    apply BitVec.eq_of_toNat_eq
    rw [unpackCW_arg1, packCW_div h]
    omega
  exact congr (congr (congr (congrArg Cmd.mk hop) harg0) harg1) (packCW_mod h)

/-- A number of 72 bits is its fields of 8, 32 and 32 bits. -/
theorem fields_of_lt_two_pow_72 {n : Nat} (h : n < 2 ^ 72) :
    (n / 2 ^ 64 % 2 ^ 8 * 2 ^ 32 + n / 2 ^ 32 % 2 ^ 32) * 2 ^ 32 + n % 2 ^ 32 = n := by
  omega

/-- A word of `72 + ELEM_W` bits is its fields side by side: nothing lies above `op`. -/
theorem packCW_unpackCW {c : Params} {w : Nat} (h : w < 2 ^ (72 + c.elemW)) : packCW c (unpackCW c w) = w := by
  have hhead : w / 2 ^ c.elemW < 2 ^ 72 := by
    rwa [Nat.div_lt_iff_lt_mul (Nat.two_pow_pos _), ← Nat.pow_add]
  rw [packCW, unpackCW_op, unpackCW_arg0, unpackCW_arg1, fields_of_lt_two_pow_72 hhead]
  exact Nat.div_add_mod' w _

/-! ## The statements -/

/-- Settles O3: unpacking undoes packing where the element fits, the decoder undoes the encoder, and a word of that width
is the sum of its fields. -/
theorem commandWordRoundTrip : Obligations.CommandWordRoundTrip := by
  refine ⟨fun c i h => ⟨packCW_lt (encode_wdata_lt h), ?_⟩, fun _ _ => packCW_unpackCW⟩
  rw [decodeCW, encodeCW, unpackCW_packCW (encode_wdata_lt h), decode_encode]

/-- Settles O2: the decoder refuses where the opcode map has no row, and the gaps between its rows are the five
ranges. -/
theorem reservedBytesRefused : Obligations.ReservedBytesRefused :=
  ⟨fun _ => decode_eq_error_iff.trans Opc.ofByte_eq_none_iff_inReservedRange, length_reservedBytes⟩

/-- Settles O1: each byte is the byte of its operation. -/
theorem opcodeBytesDecode : Obligations.OpcodeBytesDecode := fun a b v =>
  ⟨decode_byte .dlNew a b v, decode_byte .dlExpired a b v, decode_byte .ntfReset a b v, decode_byte .ntfSet a b v,
    decode_byte .ntfWait a b v, decode_byte .rbPush a b v, decode_byte .rbPop a b v, decode_byte .rbPopt a b v,
    decode_byte .rbClear a b v, decode_byte .rbSize a b v, decode_byte .rbCap a b v⟩

/-- Settles O5: each pseudo-operation is its operation by definition, and the encoder writes that. -/
theorem pseudoOperationsExpand : Obligations.PseudoOperationsExpand :=
  ⟨rfl, rfl, fun _ => ⟨rfl, rfl⟩⟩

end Sys2Proof
end

section
/-! The issue, X1 and the turn of a busy port, as equations (30_encoding.md R95, R99, R100). -/

namespace Sys2Proof.Machine

/-! ## What each input makes of a step -/

theorem step_of_issue {s : State} {p : Nat} {m : Cmd} (h : s.nextInput = .issue p m) :
    step s = issueStep p m s.begin := by
  rw [step, h, inputStep]

theorem step_of_micro {s : State} {p : Nat} {b : Bool} (h : s.nextInput = .micro p b) :
    step s = microStep p b s.begin := by
  rw [step, h, inputStep]

/-- An idle port latches the command offered to it (30_encoding.md R99). -/
theorem issueStep_of_idle {s : State} {p : Nat} {m : Cmd} (hp : p < s.params.nports) (hi : (s.port p).phase = .idle) :
    issueStep p m s = .next (s.setPort p ((s.port p).latch s.params m)) := by
  simp [issueStep, hp, State.cmdReady, hi]

/-- A port at X1 answers `ill = 1` (30_encoding.md R95). -/
theorem microStep_of_reserved {s : State} {p : Nat} {b : Bool} (hp : p < s.params.nports)
    (hx : (s.port p).phase = .reservedX1) : microStep p b s = .next ((s.turn p b).complete true false 0) := by
  simp [microStep, hp, hx, execReserved]

/-- A port with an operation in flight performs a micro-step of what its latched command decodes to
(30_encoding.md R100). -/
theorem microStep_of_decode {s : State} {p : Nat} {b : Bool} {i : Instr} (hp : p < s.params.nports)
    (hi : (s.port p).phase ≠ .idle) (hx : (s.port p).phase ≠ .reservedX1) (hd : decode (s.port p).cmd = .ok i) :
    microStep p b s = exec i (s.turn p b) := by
  unfold microStep
  rw [if_pos hp]
  split
  · contradiction
  · contradiction
  · rw [hd]

/-! ## What the two steps leave unchanged -/

/-- Replacing one port's registers touches nothing shared. -/
theorem begin_setPort_sharedSame (s : State) (p : Nat) (q : Port) : SharedSame s (s.begin.setPort p q) := by
  simp [SharedSame, FlagsSame, IndicesSame, StorageSame]

/-- A completion touches nothing shared. -/
theorem begin_turn_complete_sharedSame (s : State) (p : Nat) (b ill ok : Bool) (d : Nat) :
    SharedSame s ((s.begin.turn p b).complete ill ok d) := by
  simp [SharedSame, FlagsSame, IndicesSame, StorageSame]

/-! ## The first label of a command -/

theorem firstPhase_of_reserved {op : Byte} (h : Opc.ofByte op = none) : firstPhase op = .reservedX1 := by
  simp [firstPhase, h]

/-- The byte of an operation sets that operation's first label (30_encoding.md R99). -/
theorem firstPhase_byte (o : Opc) : firstPhase o.byte = firstPhaseOf o := by
  simp [firstPhase, Opc.ofByte_byte]

/-- A command whose element signal has `ELEM_W` bits is latched as it is. -/
theorem latch_of_lt {c : Params} {m : Cmd} (q : Port) (h : m.wdata < 2 ^ c.elemW) : q.latch c m =
    { q with op := m.op, arg0 := m.arg0, arg1 := m.arg1, wdata := m.wdata, phase := firstPhase m.op } := by
  rw [Port.latch, truncElem_of_lt h]

/-- A port that latches a command of operation `o` stands at the first label of `o`. -/
theorem latch_phase_of_byte (o : Opc) {c : Params} {q : Port} {m : Cmd} (h : m.op = o.byte) :
    (q.latch c m).phase = firstPhaseOf o := by
  rw [← firstPhase_byte, ← h, Port.latch]

/-! ## The statements -/

/-- Settles O41: X1 is `complete` on the port whose turn it is, and the port exists because it is busy. -/
theorem reservedOpcodeAnswersIll : Obligations.ReservedOpcodeAnswersIll := by
  refine ⟨fun _ => firstPhase_of_reserved, fun s p b hin hp hx => ?_⟩
  have hlen : p < s.ports.length := State.lt_length_of_busy (by rw [hx]; decide)
  have hstep : step s = .next ((s.begin.turn p b).complete true false 0) := by
    rw [step_of_micro hin, microStep_of_reserved (by simpa using hp) (by simpa using hx)]
  obtain ⟨hme, hrsp, hothers, -⟩ :=
    State.complete_completed (s := s.begin.turn p b) true false 0 (by simpa using hlen)
  refine ⟨_, hstep, ?_, hrsp, ?_, begin_turn_complete_sharedSame s p b true false 0, ?_, fun q hq => ?_⟩
  · exact hme.trans (by rw [State.turn_me, State.begin_port])
  · simp
  · simp
  · simpa using hothers q hq

/-- Settles O42: the issue replaces the registers of one port by the latched ones; the first labels are read off the
operations' bytes. -/
theorem issueLatchesCommand : Obligations.IssueLatchesCommand := by
  intro s p m hin hp hlen hw hidle
  have hstep : step s = .next (s.begin.setPort p ((s.port p).latch s.params m)) := by
    rw [step_of_issue hin, issueStep_of_idle (by simpa using hp) (by simpa using hidle), State.begin_port,
      State.begin_params]
  have hport := State.port_setPort_same (s := s.begin) ((s.port p).latch s.params m) (by simpa [hlen] using hp)
  refine ⟨_, hstep, by simp, begin_setPort_sharedSame s p _, fun k hk => ?_, ?_⟩
  · rw [State.port_setPort_ne _ hk, State.begin_port]
  · rw [hport]
    exact ⟨latch_of_lt _ hw, latch_phase_of_byte .dlNew, latch_phase_of_byte .dlExpired, latch_phase_of_byte .ntfReset,
      latch_phase_of_byte .ntfSet, latch_phase_of_byte .ntfWait, latch_phase_of_byte .rbPush, latch_phase_of_byte .rbPop,
      latch_phase_of_byte .rbPopt, latch_phase_of_byte .rbClear, latch_phase_of_byte .rbSize, latch_phase_of_byte .rbCap,
      fun hd => firstPhase_of_reserved (decode?_eq_none_iff.1 hd)⟩

/-- Settles O40: taking the input up leaves the port and its latched command as they are. -/
theorem stepRunsDecoded : Obligations.StepRunsDecoded := by
  intro s p b i hin hp hi hx hd
  rw [step_of_micro hin]
  exact microStep_of_decode (by simpa using hp) (by simpa using hi) (by simpa using hx) (by simpa using hd)

end Sys2Proof.Machine
end

section
/-! The deadline evaluator (40_deadline.md R120 to R129): `dl_new` and `dl_expired` as arithmetic on ticks, and when
what they answer is right. -/

namespace Sys2Proof.Machine

/-! ## The two pure functions -/

/-- The cast is not negative exactly in the lower half of the words (40_deadline.md R121). -/
theorem signed32_nonneg_iff {v : Word} : 0 ≤ signed32 v ↔ v.toNat < 2 ^ 31 := by
  have hv := v.isLt
  unfold signed32
  split <;> omega

theorem dlNew_target_toNat (now d : Word) : (dlNew now d).target.toNat = (now.toNat + d.toNat) % 2 ^ 32 :=
  BitVec.toNat_add now d

/-- Only the sentinel makes an unlimited deadline (40_deadline.md R120). -/
theorem dlNew_unlimited_iff {now d : Word} : (dlNew now d).unlimited = true ↔ d = 0xFFFFFFFF :=
  beq_iff_eq

theorem dlNew_limited {now d : Word} (hd : d ≠ 0xFFFFFFFF) : (dlNew now d).unlimited = false :=
  Bool.eq_false_iff.2 (mt dlNew_unlimited_iff.1 hd)

theorem dlExpired_of_unlimited {dl : Deadline} (h : dl.unlimited = true) (now : Word) : dlExpired dl now = false := by
  simp [dlExpired, h]

/-- A limited deadline is expired in the half of the ticks that begins at its target (40_deadline.md R121). -/
theorem dlExpired_iff_of_limited {dl : Deadline} (h : dl.unlimited = false) {now : Word} :
    dlExpired dl now = true ↔ (now - dl.target).toNat < 2 ^ 31 := by
  rw [← signed32_nonneg_iff, dlExpired, h, if_neg Bool.false_ne_true, decide_eq_true_iff]

/-! ## The answer after `e` true ticks -/

/-- The distance from the target to the tick `e` ticks after the creation does not depend on the creation's tick. -/
theorem tick_sub_target_toNat (now d : Word) (e : Nat) :
    ((now + BitVec.ofNat 32 e - (dlNew now d).target).toNat : Int) = ((e : Int) - (d.toNat : Int)) % 2 ^ 32 := by
  have hnow := now.isLt
  have hd := d.isLt
  rw [BitVec.toNat_sub, dlNew_target_toNat, BitVec.toNat_add, BitVec.toNat_ofNat]
  omega

section Answer

variable {now d : Word} (hd : d ≠ 0xFFFFFFFF) {e : Nat}
include hd

/-- The formula of 40_deadline.md R123. -/
theorem dlExpired_dlNew_iff :
    dlExpired (dlNew now d) (now + BitVec.ofNat 32 e) = true ↔ ((e : Int) - (d.toNat : Int)) % 2 ^ 32 < 2 ^ 31 := by
  rw [dlExpired_iff_of_limited (dlNew_limited hd), ← tick_sub_target_toNat now]
  omega

theorem dlExpired_dlNew_eq_false_iff :
    dlExpired (dlNew now d) (now + BitVec.ofNat 32 e) = false ↔ 2 ^ 31 ≤ ((e : Int) - (d.toNat : Int)) % 2 ^ 32 := by
  rw [← Bool.not_eq_true, dlExpired_dlNew_iff hd, not_lt]

/-- Before the end and at most half the range from it: rightly not expired. -/
theorem not_dlExpired_before (h : e < d.toNat) (hnear : d.toNat - e ≤ 2 ^ 31) :
    dlExpired (dlNew now d) (now + BitVec.ofNat 32 e) = false := by
  rw [dlExpired_dlNew_eq_false_iff hd]
  omega

/-- Before the end by more than half the range: wrongly expired. -/
theorem dlExpired_long_before (h : e < d.toNat) (hfar : 2 ^ 31 < d.toNat - e) :
    dlExpired (dlNew now d) (now + BitVec.ofNat 32 e) = true := by
  have hlt := d.isLt
  rw [dlExpired_dlNew_iff hd]
  omega

/-- From the end on, for half the range: rightly expired. -/
theorem dlExpired_after (h : d.toNat ≤ e) (hnear : e < d.toNat + 2 ^ 31) :
    dlExpired (dlNew now d) (now + BitVec.ofNat 32 e) = true := by
  rw [dlExpired_dlNew_iff hd]
  omega

/-- In the half of the range after that: wrongly not expired. -/
theorem not_dlExpired_long_after (hfar : d.toNat + 2 ^ 31 ≤ e) (h : e < d.toNat + 2 ^ 32) :
    dlExpired (dlNew now d) (now + BitVec.ofNat 32 e) = false := by
  rw [dlExpired_dlNew_eq_false_iff hd]
  omega

/-- The answer is right at every tick up to `e` exactly inside the window (40_deadline.md R123). Outside it one tick
shows the error: the creation's for a duration above half the range, else the one half the range after the end. -/
theorem dlExpired_right_throughout_iff :
    (∀ k, k ≤ e → (dlExpired (dlNew now d) (now + BitVec.ofNat 32 k) = true ↔ d.toNat ≤ k)) ↔
      d.toNat ≤ 2 ^ 31 ∧ e < d.toNat + 2 ^ 31 := by
  constructor
  · intro hright
    have hshort : d.toNat ≤ 2 ^ 31 := by
      by_contra hlong
      have hend := (hright 0 (Nat.zero_le e)).1 (dlExpired_long_before hd (by omega) (by omega))
      omega
    refine ⟨hshort, ?_⟩
    by_contra hlate
    have hexp := (hright (d.toNat + 2 ^ 31) (by omega)).2 (by omega)
    rw [not_dlExpired_long_after hd le_rfl (by omega)] at hexp
    cases hexp
  · rintro ⟨hshort, hearly⟩ k hk
    rcases Nat.lt_or_ge k d.toNat with hbefore | hafter
    · simp [not_dlExpired_before hd hbefore (by omega), hbefore]
    · simp [dlExpired_after hd hafter (by omega), hafter]

end Answer

/-- The tick register comes round after 2^32 ticks. -/
theorem ofNat_sub_two_pow_32 {e : Nat} (h : 2 ^ 32 ≤ e) : BitVec.ofNat 32 (e - 2 ^ 32) = BitVec.ofNat 32 e := by
  apply BitVec.eq_of_toNat_eq
  rw [BitVec.toNat_ofNat, BitVec.toNat_ofNat, ← Nat.mod_eq_sub_mod h]

/-! ## The statements about the functions -/

/-- Settles O11: each row of R123 from the formula, the last one because the tick has come round. -/
theorem evaluatorTruthWindow : Obligations.EvaluatorTruthWindow := by
  intro now d hd e
  refine ⟨dlExpired_dlNew_iff hd, not_dlExpired_before hd, dlExpired_long_before hd, dlExpired_after hd,
    not_dlExpired_long_after hd, fun hround => ?_, dlExpired_right_throughout_iff hd⟩
  exact congrArg (fun w => dlExpired (dlNew now d) (now + w)) (ofNat_sub_two_pow_32 (by omega)).symm

/-- Settles O10: a zero duration ends at its creation. -/
theorem zeroDurationExpiredAtOnce : Obligations.ZeroDurationExpiredAtOnce := by
  refine fun now => ⟨?_, fun e he => dlExpired_after (by decide) (Nat.zero_le e) (by simpa using he)⟩
  exact congr (congrArg Deadline.mk (BitVec.add_zero now)) (dlNew_limited (now := now) (by decide))

/-- Settles O9: the sentinel is the one unlimited duration, and an unlimited deadline never expires. -/
theorem sentinelNeverExpires : Obligations.SentinelNeverExpires :=
  ⟨fun _ later => ⟨dlNew_unlimited_iff.2 rfl, dlExpired_of_unlimited (dlNew_unlimited_iff.2 rfl) later⟩,
    fun _ _ => dlNew_limited⟩

end Sys2Proof.Machine
end

section
/-! The operations DL.NEW and DL.EXPIRED (40_deadline.md R124, R125): one micro-step each, an update of the own port's
registers and then `complete`. -/

namespace Sys2Proof.Machine

/-! ## An update of the own port and then `complete` -/

namespace State

@[simp] theorem me_updMe_complete {s : State} {f : Port → Port} (ill ok : Bool) (d : Nat)
    (h : s.active < s.ports.length) : ((s.updMe f).complete ill ok d).me = (f s.me).respond ill ok d := by
  rw [me_complete ill ok d (by simpa using h), me_updMe f h]

end State

/-- The operation ends with the response `complete` is given (30_encoding.md R101). -/
theorem updMe_complete_completed {s : State} (f : Port → Port) (ill ok : Bool) (d : Nat)
    (h : s.active < s.ports.length) : Completed s ((s.updMe f).complete ill ok d) ill ok d := by
  simp [Completed, h, Port.respond]

/-- Whatever the own port's update, nothing shared changes (10_state.md R20). -/
theorem updMe_complete_sharedSame (s : State) (f : Port → Port) (ill ok : Bool) (d : Nat) :
    SharedSame s ((s.updMe f).complete ill ok d) := by
  simp [SharedSame, FlagsSame, IndicesSame, StorageSame]

/-! ## The result of DL.EXPIRED -/

/-- A bit is no wider than a result (20_memory.md R62). -/
theorem zextData_bit (c : Params) (b : Bool) : zextData c (bit b) = if b then 1 else 0 := by
  have hwide : 2 ^ 1 ≤ 2 ^ c.dataW := Nat.pow_le_pow_right (by decide) (le_trans (by decide) (le_max_left 32 c.elemW))
  have hbit : bit b < 2 ^ 1 := by
    cases b <;> decide
  rw [zextData, if_pos (lt_of_lt_of_le hbit hwide), bit]

/-- Once a DL.NEW has completed on the port, `DL[p]` reads as the register (40_deadline.md R127). -/
theorem readDl_of_created {s : State} (h : s.me.dlCreated = true) : s.readDl s.active = s.me.dl :=
  if_pos h

/-! ## The two micro-steps -/

/-- N1 as an equation (40_deadline.md R124). -/
theorem exec_dlNew_of_newN1 {s : State} (d : Word) (h : s.me.phase = .newN1) :
    exec (.dlNew d) s = .next ((s.updMe fun q =>
      { q with tNow := s.tick, dl := dlNew s.tick d, dlCreated := true }).complete false true 0) := by
  simp [exec, execDlNew, h, State.loadTick]

/-- E1 as an equation, whether a deadline has been created or not (40_deadline.md R125, R127). -/
theorem exec_dlExpired_of_expiredE1 {s : State} (h : s.me.phase = .expiredE1) :
    exec .dlExpired s = .next ((s.updMe fun q => { q with tNow := s.tick }).complete
      false true (if dlExpired (s.readDl s.active) s.tick then 1 else 0)) := by
  simp [exec, execDlExpired, h, State.loadTick, zextData_bit]

/-- All E1 does, whatever deadline it reads. -/
theorem exec_dlExpired_effect {s : State} (h : s.me.phase = .expiredE1) :
    ∃ t, exec .dlExpired s = .next t ∧
      Completed s t false true (if dlExpired (s.readDl s.active) s.tick then 1 else 0) ∧ t.me.tNow = s.tick ∧
      Elsewhere s t ∧ SharedSame s t ∧ OwnDeadlineSame s t ∧ OwnWaitLocalsSame s t ∧ OwnRingLocalsSame s t := by
  have hlen := active_lt_of_phase h (by decide)
  have hexec := exec_dlExpired_of_expiredE1 h
  refine ⟨_, hexec, updMe_complete_completed _ _ _ _ hlen, ?_, exec_elsewhere hexec, updMe_complete_sharedSame .., ?_⟩
  · simp [hlen, Port.respond]
  · simp [hlen, Port.respond, OwnDeadlineSame, OwnWaitLocalsSame, OwnRingLocalsSame]

/-! ## The statements about the operations -/

/-- Settles O12: the byte is DL.NEW's, and N1 stores the deadline and completes. -/
theorem dlNewStoresDeadline : Obligations.DlNewStoresDeadline := by
  refine ⟨fun m hm => decode_of_ofByte (o := .dlNew) (hm ▸ Opc.ofByte_byte .dlNew), fun s d hphase => ?_⟩
  have hlen := active_lt_of_phase hphase (by decide)
  have hexec := exec_dlNew_of_newN1 d hphase
  refine ⟨_, hexec, ?_, ?_, ?_, ?_, updMe_complete_completed _ _ _ _ hlen, exec_elsewhere hexec,
    updMe_complete_sharedSame .., ?_⟩
  · rw [State.me_updMe_complete _ _ _ hlen]
    exact dlNew_target_toNat s.tick d
  · rw [State.me_updMe_complete _ _ _ hlen]
    exact dlNew_unlimited_iff
  all_goals simp [hlen, Port.respond, OwnWaitLocalsSame, OwnRingLocalsSame]

/-- Settles O13: the byte is DL.EXPIRED's, and E1 reads the created deadline. -/
theorem dlExpiredAnswers : Obligations.DlExpiredAnswers := by
  refine ⟨fun m hm => decode_of_ofByte (o := .dlExpired) (hm ▸ Opc.ofByte_byte .dlExpired), fun s hphase hcreated => ?_⟩
  rw [← readDl_of_created hcreated]
  exact exec_dlExpired_effect hphase

end Sys2Proof.Machine
end

section
/-! Instructions in flight and well-formed states (10_state.md R34, R35, 30_encoding.md R99, R100): a micro-step that goes
on is one of the operation the port's phase names, and in a well-formed state every step goes on. -/

namespace Sys2Proof

/-! ## What a decoded instruction says of its command -/

@[simp] theorem Opc.opc_instr (o : Opc) (m : Cmd) : (o.instr m).opc = o := by
  cases o <;> rfl

/-- A decoded instruction is that of the operation its byte names, with the command's operand signals
(30_encoding.md R91). -/
theorem instr_of_decode {m : Cmd} {i : Instr} (h : decode m = .ok i) :
    Opc.ofByte m.op = some i.opc ∧ i = i.opc.instr m := by
  unfold decode at h
  split at h <;> cases h
  next ho => simpa using ho

namespace Machine

/-! ## The labels of an operation -/

/-- The micro-step labels of an operation (10_state.md R34). -/
def opcLabels : Opc → List Phase
  | .dlNew => [.newN1]
  | .dlExpired => [.expiredE1]
  | .ntfReset => [.resetZ1]
  | .ntfSet => [.setS1]
  | .ntfWait => [.waitW0, .waitW1, .waitW2, .waitW3]
  | .rbPush => [.pushP1, .pushP2, .pushP3, .pushP4]
  | .rbPop => [.popC1, .popC2, .popC3, .popC4]
  | .rbPopt => [.poptT0, .poptC1, .poptC2, .poptC3, .poptC4, .poptT1, .poptT2]
  | .rbClear => [.clearK, .clearK1, .clearK2]
  | .rbSize => [.sizeQ, .sizeQ1, .sizeQ2]
  | .rbCap => [.capA1]

theorem mem_opcLabels {l : Phase} {o : Opc} (h : l.opc = some o) : l ∈ opcLabels o := by
  cases l <;> cases h <;> decide

/-! ## A micro-step that goes on is in flight -/

/-- An instruction the port's phase does not belong to has no micro-step to perform (log 12). -/
theorem exec_refused {i : Instr} {s : State} (h : s.me.phase.opc ≠ some i.opc) :
    exec i s = .refused .notInFlight := by
  cases i <;>
    simp only [exec, execDlNew, execDlExpired, execNtfReset, execNtfSet, execNtfWait, execRbPush, execRbPop, execRbPopt,
      execRbClear, execRbSize, execRbCap]
  -- Every arm but the last contradicts `h`, and the last one refuses.
  all_goals split <;> grind [Phase.opc, Instr.opc]

/-- A micro-step that goes on is one of the operation the port's phase belongs to. -/
theorem opc_phase_of_exec {i : Instr} {s t : State} (h : exec i s = .next t) : s.me.phase.opc = some i.opc := by
  by_contra hne
  rw [exec_refused hne] at h
  cases h

/-- Which instruction a port performs a micro-step of: its phase names the operation, its latched command the operands. -/
theorem instr_of_exec {i : Instr} {s t : State} {o : Opc} (hd : decode s.me.cmd = .ok i) (h : exec i s = .next t)
    (ho : s.me.phase.opc = some o) : i = o.instr s.me.cmd := by
  have hi : i.opc = o := Option.some.inj ((opc_phase_of_exec h).symm.trans ho)
  exact hi ▸ (instr_of_decode hd).2

/-! ## When a micro-step goes on -/

theorem checkDeadline_goes_on (l : Phase) (s : State) : ∃ t, checkDeadline l s = .next t := by
  unfold checkDeadline
  split <;> exact ⟨_, rfl⟩

theorem waitLook_goes_on (f : Word) (s : State) : ∃ t, waitLook f s = .next t := by
  by_cases h : s.raisedFlags &&& f = 0
  · exact ⟨_, waitLook_next.2 (.inr ⟨h, rfl⟩)⟩
  · exact ⟨_, waitLook_next.2 (.inl ⟨h, rfl⟩)⟩

theorem popLoadWrite_goes_on {s : State} (l : Phase) (g : State → State) (hw : s.writeIndex < s.params.slots) :
    ∃ t, popLoadWrite l g s = .next t := by
  by_cases h : s.writeIndex = s.me.tR
  · exact ⟨_, popLoadWrite_next.2 ⟨hw, .inl ⟨h, rfl⟩⟩⟩
  · exact ⟨_, popLoadWrite_next.2 ⟨hw, .inr ⟨h, rfl⟩⟩⟩

/-- Where the four indices a micro-step may use lie in `0 .. N-1`, every micro-step in flight goes on (20_memory.md R63,
R74). -/
theorem exec_goes_on {i : Instr} {s : State} (hf : s.me.phase.opc = some i.opc) (hw : s.writeIndex < s.params.slots)
    (hr : s.readIndex < s.params.slots) (htw : s.me.tW < s.params.slots) (htr : s.me.tR < s.params.slots) :
    ∃ t, exec i s = .next t := by
  have hl := mem_opcLabels hf
  cases i <;> simp only [Instr.opc, opcLabels, List.mem_cons, List.not_mem_nil, or_false] at hl
  case dlNew d => exact ⟨_, exec_dlNew_of_newN1 d hl⟩
  case dlExpired => exact ⟨_, exec_dlExpired_of_expiredE1 hl⟩
  case ntfReset => simp [exec, execNtfReset, hl]
  case ntfSet f => simp [exec, execNtfSet, hl]
  case ntfWait f d =>
    simp only [exec, execNtfWait]
    rcases hl with hp | hp | hp | hp <;> rw [hp]
    · exact ⟨_, rfl⟩
    · exact waitLook_goes_on f s
    · exact checkDeadline_goes_on _ s
    · exact ⟨_, rfl⟩
  case rbPush v =>
    simp only [exec, execRbPush]
    rcases hl with hp | hp | hp | hp <;> rw [hp]
    · simp [hw]
    · by_cases hfull : ringFull s.params s.me.tW s.readIndex = true <;> simp [hr, hfull]
    · simp [htw]
    · exact ⟨_, rfl⟩
  case rbPop =>
    simp only [exec, execRbPop]
    rcases hl with hp | hp | hp | hp <;> rw [hp]
    · simp [popLoadRead, hr]
    · exact popLoadWrite_goes_on _ _ hw
    · simp [popRead, htr]
    · exact ⟨_, rfl⟩
  case rbPopt d =>
    simp only [exec, execRbPopt]
    rcases hl with hp | hp | hp | hp | hp | hp | hp <;> rw [hp]
    · exact ⟨_, rfl⟩
    · simp [popLoadRead, hr]
    · exact popLoadWrite_goes_on _ _ hw
    · simp [popRead, htr]
    · exact ⟨_, rfl⟩
    · exact checkDeadline_goes_on _ s
    · exact ⟨_, rfl⟩
  case rbClear =>
    simp only [exec, execRbClear]
    rcases hl with hp | hp | hp <;> rw [hp]
    · by_cases hswap : s.swap = true <;> simp [hswap]
    · exact ⟨_, rfl⟩
    · exact ⟨_, rfl⟩
  case rbSize =>
    simp only [exec, execRbSize]
    rcases hl with hp | hp | hp <;> rw [hp]
    · by_cases hswap : s.swap = true <;> simp [hswap, hw, hr]
    · simp [hw]
    · simp [hr]
  case rbCap => simp [exec, execRbCap, hl]

/-! ## Well-formed states -/

/-- The parts of a well-formed port (10_state.md R20, R33, R34). -/
theorem Port.wf_iff {c : Params} {q : Port} : q.wf c = true ↔
    (q.phase = .idle ∨ Opc.ofByte q.op = q.phase.opc) ∧ q.wdata < 2 ^ c.elemW ∧ q.tV < 2 ^ c.elemW ∧
      q.rspData < 2 ^ c.dataW ∧ q.tW < c.slots ∧ q.tR < c.slots := by
  have hphase : q.phaseOk = true ↔ q.phase = .idle ∨ Opc.ofByte q.op = q.phase.opc := by
    unfold Port.phaseOk
    split
    · next hp => simp [hp]
    · next hp => simpa using fun h => absurd h hp
  simp [Port.wf, hphase, and_assoc]

/-- The parts of a well-formed state. -/
theorem State.wf_iff {s : State} : s.wf = true ↔
    s.params.ok = true ∧ s.ports.length = s.params.nports ∧ s.writeIndex < s.params.slots ∧
      s.readIndex < s.params.slots ∧ Memory.wf s.storage = true ∧ Memory.inRange s.params s.storage = true ∧
      (∀ q ∈ s.ports, Port.wf s.params q = true) ∧ (∀ i ∈ s.inputs, Input.wf s.params i = true) ∧
      ∀ p ∈ s.rspValid, p < s.params.nports := by
  unfold State.wf
  cases s.rspValid <;> simp [and_assoc]

theorem Params.nports_pos {c : Params} (h : c.ok = true) : 0 < c.nports := by
  obtain ⟨-, hn⟩ : _ ∧ 1 ≤ c.nports := by simpa [Params.ok] using h
  exact hn

/-- The registers of an existing port of a well-formed state are well formed. -/
theorem State.port_wf {s : State} (h : s.wf = true) {p : Nat} (hp : p < s.params.nports) :
    (s.port p).wf s.params = true := by
  obtain ⟨-, hlen, -, -, -, -, hports, -⟩ := State.wf_iff.1 h
  have hp' : p < s.ports.length := hlen ▸ hp
  simpa [State.port, List.getD, hp'] using hports _ (List.getElem_mem hp')

/-- The next input of a well-formed state, listed or free, names a port the block has (log 2). -/
theorem State.nextInput_wf {s : State} (h : s.wf = true) : s.nextInput.wf s.params = true := by
  obtain ⟨hok, -, -, -, -, -, -, hin, -⟩ := State.wf_iff.1 h
  have hn := Params.nports_pos hok
  unfold State.nextInput
  split
  · next i rest hi => exact hin i (by simp [hi])
  · cases Config.freeInput s.draws <;> simp [Input.onPorts, Input.wf, Nat.mod_lt _ hn]

@[simp] theorem State.begin_inputs (s : State) : s.begin.inputs = s.inputs.tail := by
  unfold State.begin
  split <;> simp [*]

/-- Taking up an input keeps a state well formed. -/
theorem State.begin_wf {s : State} (h : s.wf = true) : s.begin.wf = true := by
  obtain ⟨hok, hlen, hw, hr, hm, hm', hports, hin, -⟩ := State.wf_iff.1 h
  refine State.wf_iff.2 ⟨by simpa using hok, by simpa using hlen, by simpa using hw, by simpa using hr,
    by simpa using hm, by simpa using hm', by simpa using hports, ?_, by simp⟩
  simpa using fun i hi => hin i (List.mem_of_mem_tail hi)

/-- Every busy phase but X1 belongs to an operation (10_state.md R34). -/
theorem opc_of_busy {l : Phase} (hi : l ≠ .idle) (hx : l ≠ .reservedX1) : ∃ o, l.opc = some o :=
  Option.ne_none_iff_exists'.1 (by cases l <;> simp_all [Phase.opc])

/-- An existing port of a well-formed state has an enabled turn (60_exceptions.md R237). -/
theorem microStep_goes_on {s : State} (h : s.wf = true) {p : Nat} (hp : p < s.params.nports) (b : Bool) :
    ∃ t, microStep p b s = .next t := by
  obtain ⟨-, -, hw, hr, -⟩ := State.wf_iff.1 h
  obtain ⟨hop, -, -, -, htw, htr⟩ := Port.wf_iff.1 (State.port_wf h hp)
  by_cases hi : (s.port p).phase = .idle
  · exact ⟨s, by simp [microStep, hp, hi]⟩
  by_cases hx : (s.port p).phase = .reservedX1
  · exact ⟨_, microStep_of_reserved hp hx⟩
  obtain ⟨o, ho⟩ := opc_of_busy hi hx
  have hd : decode (s.port p).cmd = .ok (o.instr (s.port p).cmd) :=
    decode_of_ofByte ((hop.resolve_left hi).trans ho)
  rw [microStep_of_decode hp hi hx hd]
  exact exec_goes_on (by simpa using ho) hw hr (by simpa using htw) (by simpa using htr)

/-- An existing port takes a command or, busy, nothing. -/
theorem issueStep_goes_on {s : State} {p : Nat} (hp : p < s.params.nports) (m : Cmd) :
    ∃ t, issueStep p m s = .next t := by
  unfold issueStep
  rw [if_pos hp]
  split <;> exact ⟨_, rfl⟩

/-- From a well-formed state the machine takes its step, whatever the input. -/
theorem step_goes_on {s : State} (h : s.wf = true) : ∃ t, step s = .next t := by
  have hin := State.nextInput_wf h
  cases hi : s.nextInput with
  | tick => exact ⟨_, step_of_tick hi⟩
  | rst => exact ⟨s.begin.hwReset, by rw [step, hi, inputStep]⟩
  | issue p m =>
    rw [step_of_issue hi]
    exact issueStep_goes_on (by simpa [hi, Input.wf] using hin) m
  | micro p b =>
    rw [step_of_micro hi]
    exact microStep_goes_on (State.begin_wf h) (by simpa [hi, Input.wf] using hin) b

end Machine
end Sys2Proof
end

section
/-! The micro-steps the timed waits share, building the own deadline and testing it (40_deadline.md R131), and the
operations of the notifier (41_notifier.md R143 to R153). -/

namespace Sys2Proof.Machine

/-! ## Frames in a row -/

theorem SharedSame.trans {s t u : State} (h : SharedSame s t) (k : SharedSame t u) : SharedSame s u := by
  obtain ⟨hf, ⟨hw, hr⟩, hs⟩ := h
  obtain ⟨kf, ⟨kw, kr⟩, ks⟩ := k
  exact ⟨kf.trans hf, ⟨kw.trans hw, kr.trans hr⟩, fun i => ⟨(ks i).1.trans (hs i).1, (ks i).2.trans (hs i).2⟩⟩

theorem OwnDeadlineSame.trans {s t u : State} (h : OwnDeadlineSame s t) (k : OwnDeadlineSame t u) :
    OwnDeadlineSame s u :=
  ⟨k.1.trans h.1, k.2.trans h.2⟩

theorem OwnResponseSame.trans {s t u : State} (h : OwnResponseSame s t) (k : OwnResponseSame t u) :
    OwnResponseSame s u := by
  obtain ⟨hi, ho, hd, hv⟩ := h
  obtain ⟨ki, ko, kd, kv⟩ := k
  exact ⟨ki.trans hi, ko.trans ho, kd.trans hd, kv.trans hv⟩

theorem Elsewhere.tick_eq {s t : State} (h : Elsewhere s t) : t.tick = s.tick := by
  obtain ⟨-, -, htick, -⟩ := h
  exact htick

theorem Elsewhere.active_eq {s t : State} (h : Elsewhere s t) : t.active = s.active := by
  obtain ⟨-, -, -, -, -, -, -, hactive, -⟩ := h
  exact hactive

theorem SharedSame.flags_eq {s t : State} (h : SharedSame s t) : t.raisedFlags = s.raisedFlags := by
  obtain ⟨hflags, -⟩ := h
  exact hflags

/-- A completion a few micro-steps later is one of the operation of the same port. -/
theorem Elsewhere.completed {s t u : State} {ill ok : Bool} {d : Nat} (h : Elsewhere s t)
    (hc : Completed t u ill ok d) : Completed s u ill ok d := by
  rwa [Completed, h.active_eq] at hc

/-- Whatever the own port's update and jump, nothing shared changes (10_state.md R20). -/
theorem updMe_goto_sharedSame (s : State) (f : Port → Port) (l : Phase) : SharedSame s ((s.updMe f).goto l) := by
  simp [SharedSame, FlagsSame, IndicesSame, StorageSame]

theorem updMe_sharedSame (s : State) (f : Port → Port) : SharedSame s (s.updMe f) := by
  simp [SharedSame, FlagsSame, IndicesSame, StorageSame]

/-! ## The shared micro-steps of the timed waits -/

/-- All W0 and T0 do (40_deadline.md R131). -/
theorem startDeadline_effect {s : State} (d : Word) (l : Phase) (h : s.active < s.ports.length) :
    ∃ t, startDeadline d l s = .next t ∧ t.me.tNow = s.tick ∧ t.me.tDl = dlNew s.tick d ∧ t.me.phase = l ∧
      t.me.tF = s.me.tF ∧ Elsewhere s t ∧ SharedSame s t ∧ OwnDeadlineSame s t ∧ OwnResponseSame s t ∧
      OwnRingLocalsSame s t := by
  refine ⟨_, rfl, ?_, ?_, ?_, ?_, Elsewhere.updMe h ⟨rfl, rfl, rfl, rfl⟩, updMe_sharedSame .., ?_⟩
  all_goals simp [h, State.loadTick, OwnDeadlineSame, OwnResponseSame, OwnRingLocalsSame]

/-- All W2 and T1 do, with either answer of the test (41_notifier.md R145, 42_ringbuffer.md R178). -/
theorem checkDeadline_effect {s : State} (l : Phase) (h : s.active < s.ports.length) :
    ∃ t, checkDeadline l s = .next t ∧ t.me.tNow = s.tick ∧ OwnWaitLocalsSame s t ∧
      (dlExpired s.me.tDl s.tick = true → Completed s t false false 0) ∧
      (dlExpired s.me.tDl s.tick = false → t.me.phase = l ∧ OwnResponseSame s t) ∧
      Elsewhere s t ∧ SharedSame s t ∧ OwnDeadlineSame s t ∧ OwnRingLocalsSame s t := by
  obtain ⟨t, ht⟩ := checkDeadline_goes_on l s
  have helse := checkDeadline_elsewhere h ht
  rcases checkDeadline_next.1 ht with ⟨hexp, rfl⟩ | ⟨hrun, rfl⟩
  · refine ⟨_, ht, ?_, ?_, fun _ => updMe_complete_completed _ _ _ _ h, fun hrun => by simp [hexp] at hrun, helse,
      updMe_complete_sharedSame .., ?_⟩
    all_goals simp [h, Port.respond, OwnWaitLocalsSame, OwnDeadlineSame, OwnRingLocalsSame]
  · refine ⟨_, ht, ?_, ?_, fun hexp => by simp [hrun] at hexp, fun _ => ?_, helse, updMe_goto_sharedSame .., ?_⟩
    all_goals simp [h, OwnWaitLocalsSame, OwnDeadlineSame, OwnResponseSame, OwnRingLocalsSame]

/-- All the yields W3 and T2 do (60_exceptions.md R239). -/
theorem goto_effect {s : State} (l : Phase) (h : s.active < s.ports.length) :
    (s.goto l).me.phase = l ∧ (s.goto l).me.tNow = s.me.tNow ∧ OwnWaitLocalsSame s (s.goto l) ∧
      Elsewhere s (s.goto l) ∧ SharedSame s (s.goto l) ∧ OwnDeadlineSame s (s.goto l) ∧
      OwnResponseSame s (s.goto l) ∧ OwnRingLocalsSame s (s.goto l) := by
  refine ⟨?_, ?_, ?_, Elsewhere.goto l h, updMe_sharedSame .., ?_⟩
  all_goals simp [h, OwnWaitLocalsSame, OwnDeadlineSame, OwnResponseSame, OwnRingLocalsSame]

/-! ## NTF.RESET and NTF.SET -/

/-- Z1 as an equation (41_notifier.md R143). -/
theorem exec_ntfReset_of_resetZ1 {s : State} (h : s.me.phase = .resetZ1) :
    exec .ntfReset s = .next ((s.storeFlags 0).complete false true 0) := by
  simp [exec, execNtfReset, h]

/-- S1 as an equation (41_notifier.md R144). -/
theorem exec_ntfSet_of_setS1 {s : State} (f : Word) (h : s.me.phase = .setS1) :
    exec (.ntfSet f) s = .next ((s.fetchOrFlags f).complete false true 0) := by
  simp [exec, execNtfSet, h, truncFlags]

/-! ## NTF.WAIT -/

/-- A word is no wider than a result (20_memory.md R62). -/
theorem zextData_toNat (c : Params) (w : Word) : zextData c w.toNat = w.toNat :=
  if_pos (lt_of_lt_of_le w.isLt (Nat.pow_le_pow_right (by decide) (le_max_left 32 c.elemW)))

/-- All a look at the flags does, with either answer (41_notifier.md R145, R152). -/
theorem waitLook_effect {s : State} (f : Word) (h : s.active < s.ports.length) :
    ∃ t, waitLook f s = .next t ∧ t.me.tF = s.raisedFlags ∧ t.me.tDl = s.me.tDl ∧ t.me.tNow = s.me.tNow ∧
      (s.raisedFlags &&& f ≠ 0 → Completed s t false true (s.raisedFlags &&& f).toNat) ∧
      (s.raisedFlags &&& f = 0 → t.me.phase = .waitW2 ∧ OwnResponseSame s t) ∧
      Elsewhere s t ∧ SharedSame s t ∧ OwnDeadlineSame s t ∧ OwnRingLocalsSame s t := by
  obtain ⟨t, ht⟩ := waitLook_goes_on f s
  have helse := waitLook_elsewhere h ht
  rcases waitLook_next.1 ht with ⟨hhit, rfl⟩ | ⟨hmiss, rfl⟩
  · rw [zextData_toNat] at *
    refine ⟨_, ht, ?_, ?_, ?_, fun _ => updMe_complete_completed _ _ _ _ h, fun hmiss => absurd hmiss hhit, helse,
      updMe_complete_sharedSame .., ?_⟩
    all_goals simp [h, Port.respond, OwnDeadlineSame, OwnRingLocalsSame]
  · refine ⟨_, ht, ?_, ?_, ?_, fun hhit => absurd hmiss hhit, fun _ => ?_, helse, updMe_goto_sharedSame .., ?_⟩
    all_goals simp [h, OwnDeadlineSame, OwnResponseSame, OwnRingLocalsSame]

theorem exec_ntfWait_of_waitW0 {s : State} (f d : Word) (h : s.me.phase = .waitW0) :
    exec (.ntfWait f d) s = startDeadline d .waitW1 s := by
  simp only [exec, execNtfWait, h]

theorem exec_ntfWait_of_waitW1 {s : State} (f d : Word) (h : s.me.phase = .waitW1) :
    exec (.ntfWait f d) s = waitLook f s := by
  simp only [exec, execNtfWait, h]

theorem exec_ntfWait_of_waitW2 {s : State} (f d : Word) (h : s.me.phase = .waitW2) :
    exec (.ntfWait f d) s = checkDeadline .waitW3 s := by
  simp only [exec, execNtfWait, h]

theorem exec_ntfWait_of_waitW3 {s : State} (f d : Word) (h : s.me.phase = .waitW3) :
    exec (.ntfWait f d) s = .next (s.goto .waitW1) := by
  simp only [exec, execNtfWait, h, State.yield_eq]

/-! ## The statements about NTF.RESET and NTF.SET -/

/-- Settles O16: Z1 stores 0 and completes. -/
theorem ntfResetClears : Obligations.NtfResetClears := by
  refine ⟨fun m hm => decode_of_ofByte (o := .ntfReset) (hm ▸ Opc.ofByte_byte .ntfReset), fun s hphase => ?_⟩
  have hlen := active_lt_of_phase hphase (by decide)
  have hexec := exec_ntfReset_of_resetZ1 hphase
  refine ⟨_, hexec, rfl, ?_, exec_elsewhere hexec, ?_⟩
  · simp [Completed, hlen, Port.respond]
  · simp [hlen, Port.respond, IndicesSame, StorageSame, OwnDeadlineSame, OwnWaitLocalsSame, OwnRingLocalsSame]

/-- Settles O17: S1 ORs the operand in and completes. -/
theorem ntfSetRaises : Obligations.NtfSetRaises := by
  refine ⟨fun m hm => decode_of_ofByte (o := .ntfSet) (hm ▸ Opc.ofByte_byte .ntfSet), fun s f hphase => ?_⟩
  have hlen := active_lt_of_phase hphase (by decide)
  have hexec := exec_ntfSet_of_setS1 f hphase
  refine ⟨_, hexec, fun i _ => BitVec.getLsbD_or, ?_, exec_elsewhere hexec, ?_⟩
  · simp [Completed, hlen, Port.respond]
  · simp [hlen, Port.respond, IndicesSame, StorageSame, OwnDeadlineSame, OwnWaitLocalsSame, OwnRingLocalsSame]

/-- What another port sees of S1 on port `p`: the flags, and its own registers as they were. -/
theorem exec_ntfSet_turn {s : State} {p : Nat} (f : Word) (h : (s.port p).phase = .setS1) :
    ∃ t, exec (.ntfSet f) (s.turn p false) = .next t ∧ t.raisedFlags = s.raisedFlags ||| f ∧
      ∀ q, q ≠ p → t.port q = s.port q := by
  have hexec := exec_ntfSet_of_setS1 (s := s.turn p false) f (by simpa using h)
  exact ⟨_, hexec, rfl, (exec_elsewhere hexec).1⟩

/-- What another port sees of Z1 on port `p`. -/
theorem exec_ntfReset_turn {s : State} {p : Nat} (h : (s.port p).phase = .resetZ1) :
    ∃ t, exec .ntfReset (s.turn p false) = .next t ∧ t.raisedFlags = 0 ∧ ∀ q, q ≠ p → t.port q = s.port q := by
  have hexec := exec_ntfReset_of_resetZ1 (s := s.turn p false) (by simpa using h)
  exact ⟨_, hexec, rfl, (exec_elsewhere hexec).1⟩

/-- Two sets in a row, on two ports, in one order. -/
theorem sets_in_order {s : State} {p q : Nat} (f g : Word) (hne : p ≠ q) (hp : (s.port p).phase = .setS1)
    (hq : (s.port q).phase = .setS1) :
    ∃ t u, exec (.ntfSet f) (s.turn p false) = .next t ∧ exec (.ntfSet g) (t.turn q false) = .next u ∧
      u.raisedFlags = s.raisedFlags ||| f ||| g := by
  obtain ⟨t, ht, hflags, hothers⟩ := exec_ntfSet_turn f hp
  obtain ⟨u, hu, hflags', -⟩ := exec_ntfSet_turn (s := t) g (by rw [hothers q hne.symm, hq])
  exact ⟨t, u, ht, hu, by rw [hflags', hflags]⟩

/-- Settles O24: both orders OR both operands in. -/
theorem setsCommute : Obligations.SetsCommute := by
  intro s p q f g hne hp hq
  obtain ⟨t, u, ht, hu, hflags⟩ := sets_in_order f g hne hp hq
  obtain ⟨t', u', ht', hu', hflags'⟩ := sets_in_order g f hne.symm hq hp
  refine ⟨t, u, t', u', ht, hu, ht', hu', hflags, ?_⟩
  rw [hflags, hflags', BitVec.or_assoc, BitVec.or_assoc, BitVec.or_comm f g]

/-- Settles O25: the later of the two micro-steps decides. -/
theorem resetSetRace : Obligations.ResetSetRace := by
  intro s p q f hne hp hq
  constructor
  · obtain ⟨t, ht, -, hothers⟩ := exec_ntfSet_turn f hq
    obtain ⟨u, hu, hflags, -⟩ := exec_ntfReset_turn (s := t) (by rw [hothers p hne, hp])
    exact ⟨t, u, ht, hu, hflags⟩
  · obtain ⟨t, ht, hflags, hothers⟩ := exec_ntfReset_turn hp
    obtain ⟨u, hu, hflags', -⟩ := exec_ntfSet_turn (s := t) f (by rw [hothers q hne.symm, hq])
    exact ⟨t, u, ht, hu, by simp [hflags', hflags]⟩

/-! ## The statements about NTF.WAIT -/

/-- Settles O18: each label's micro-step is one of the shared ones. -/
theorem ntfWaitMicroSteps : Obligations.NtfWaitMicroSteps := by
  refine ⟨fun m hm => decode_of_ofByte (o := .ntfWait) (hm ▸ Opc.ofByte_byte .ntfWait), fun s f d =>
    ⟨fun hphase => ?_, fun hphase => ?_, fun hphase => ?_, fun hphase => ?_⟩⟩
  all_goals have hlen := active_lt_of_phase hphase (by decide)
  · rw [exec_ntfWait_of_waitW0 f d hphase]
    exact startDeadline_effect d .waitW1 hlen
  · rw [exec_ntfWait_of_waitW1 f d hphase]
    exact waitLook_effect f hlen
  · rw [exec_ntfWait_of_waitW2 f d hphase]
    exact checkDeadline_effect .waitW3 hlen
  · exact ⟨_, exec_ntfWait_of_waitW3 f d hphase, goto_effect .waitW1 hlen⟩

/-- Settles O20: every label's micro-step keeps the shared state. -/
theorem waitNeverClears : Obligations.WaitNeverClears := by
  intro s f d hopc
  obtain ⟨h0, h1, h2, h3⟩ := ntfWaitMicroSteps.2 s f d
  have hl : s.me.phase ∈ opcLabels .ntfWait := mem_opcLabels hopc
  simp only [opcLabels, List.mem_cons, List.not_mem_nil, or_false] at hl
  rcases hl with hp | hp | hp | hp
  · obtain ⟨t, ht, -, -, -, -, -, hshared, -⟩ := h0 hp
    exact ⟨t, ht, hshared.flags_eq⟩
  · obtain ⟨t, ht, -, -, -, -, -, -, hshared, -⟩ := h1 hp
    exact ⟨t, ht, hshared.flags_eq⟩
  · obtain ⟨t, ht, -, -, -, -, -, hshared, -⟩ := h2 hp
    exact ⟨t, ht, hshared.flags_eq⟩
  · obtain ⟨t, ht, -, -, -, -, hshared, -⟩ := h3 hp
    exact ⟨t, ht, hshared.flags_eq⟩

/-- Settles O21: W1 does not look at the deadline, nor W2 at the flags. -/
theorem matchBeatsTimeout : Obligations.MatchBeatsTimeout := by
  intro s f d hexp hhit
  obtain ⟨-, h1, h2, -⟩ := ntfWaitMicroSteps.2 s f d
  constructor
  · intro hp
    obtain ⟨t, ht, -, -, -, hdone, -, -, hshared, -⟩ := h1 hp
    exact ⟨t, ht, hdone hhit, hshared.flags_eq⟩
  · intro hp
    obtain ⟨t, ht, -, -, hdone, -, -, hshared, -⟩ := h2 hp
    exact ⟨t, ht, hdone hexp, hshared.flags_eq⟩

theorem execTimes_succ {i : Instr} {n : Nat} {s t : State} (h : exec i s = .next t) :
    execTimes i (n + 1) s = execTimes i n t := by
  rw [execTimes, h]

/-- Settles O22: W0 makes a deadline that ends at its own tick; W1 answers a match, else W2 finds the deadline
expired. -/
theorem zeroTimeoutPolls : Obligations.ZeroTimeoutPolls := by
  intro s f hphase
  obtain ⟨t, ht, -, htDl, htp, -, hte, hts, htd, -⟩ :=
    startDeadline_effect 0 .waitW1 (active_lt_of_phase hphase (by decide))
  obtain ⟨u, hu, -, huDl, -, hhit, hmiss, hue, hus, hud, -⟩ :=
    waitLook_effect f (active_lt_of_phase htp (by decide))
  rw [← exec_ntfWait_of_waitW0 f 0 hphase] at ht
  rw [← exec_ntfWait_of_waitW1 f 0 htp] at hu
  rw [hts.flags_eq] at hhit hmiss
  refine ⟨fun hne => ⟨u, ?_, hte.completed (hhit hne), hts.trans hus, htd.trans hud⟩, fun heq => ?_⟩
  · rw [execTimes_succ ht, execTimes_succ hu, execTimes]
  obtain ⟨hup, -⟩ := hmiss heq
  obtain ⟨v, hv, -, -, hexp, -, -, hvs, hvd, -⟩ :=
    checkDeadline_effect .waitW3 (active_lt_of_phase hup (by decide))
  rw [← exec_ntfWait_of_waitW2 f 0 hup] at hv
  have hnow : dlExpired u.me.tDl u.tick = true := by
    rw [huDl, htDl, hue.tick_eq, hte.tick_eq]
    simpa using dlExpired_after (now := s.tick) (d := 0) (e := 0) (by decide) le_rfl (by decide)
  refine ⟨v, ?_, (hte.trans hue).completed (hexp hnow), (hts.trans hus).trans hvs, (htd.trans hud).trans hvd⟩
  rw [execTimes_succ ht, execTimes_succ hu, execTimes_succ hv, execTimes]

end Sys2Proof.Machine
end

section
/-! A held port's round (60_exceptions.md R240, 41_notifier.md R145, 42_ringbuffer.md R178). -/

namespace Sys2Proof.Machine

/-! ## The frame of a holding micro-step -/

/-- What a micro-step of a held operation keeps: all but the port's phase and the locals it loads into
(60_exceptions.md R240). -/
def HeldSame (s t : State) : Prop :=
  t.me.tDl = s.me.tDl ∧ Elsewhere s t ∧ SharedSame s t ∧ OwnDeadlineSame s t ∧ OwnResponseSame s t

namespace HeldSame

theorem trans {s t u : State} (h : HeldSame s t) (k : HeldSame t u) : HeldSame s u := by
  obtain ⟨hl, he, hs, hd, hr⟩ := h
  obtain ⟨kl, ke, ks, kd, kr⟩ := k
  exact ⟨kl.trans hl, he.trans ke, hs.trans ks, hd.trans kd, hr.trans kr⟩

/-- No tick has passed and the deadline is the same, so the test answers the same. -/
theorem dlExpired_eq {s t : State} (h : HeldSame s t) : dlExpired t.me.tDl t.tick = dlExpired s.me.tDl s.tick := by
  obtain ⟨hl, he, -⟩ := h
  rw [hl, he.tick_eq]

theorem goto {s : State} {l : Phase} (h : s.active < s.ports.length) : HeldSame s (s.goto l) := by
  obtain ⟨-, -, ⟨hl, -⟩, he, hs, hd, hr, -⟩ := goto_effect l h
  exact ⟨hl, he, hs, hd, hr⟩

end HeldSame

/-! ## The labels of RB.POPT -/

theorem exec_rbPopt_of_poptT0 {s : State} (d : Word) (h : s.me.phase = .poptT0) :
    exec (.rbPopt d) s = startDeadline d .poptC1 s := by
  simp only [exec, execRbPopt, h]

theorem exec_rbPopt_of_poptC1 {s : State} (d : Word) (h : s.me.phase = .poptC1) :
    exec (.rbPopt d) s = popLoadRead .poptC2 s := by
  simp only [exec, execRbPopt, h]

theorem exec_rbPopt_of_poptC2 {s : State} (d : Word) (h : s.me.phase = .poptC2) :
    exec (.rbPopt d) s = popLoadWrite .poptC3 (fun t => t.goto .poptT1) s := by
  simp only [exec, execRbPopt, h]

theorem exec_rbPopt_of_poptC3 {s : State} (d : Word) (h : s.me.phase = .poptC3) :
    exec (.rbPopt d) s = popRead .poptC4 s := by
  simp only [exec, execRbPopt, h]

theorem exec_rbPopt_of_poptC4 {s : State} (d : Word) (h : s.me.phase = .poptC4) :
    exec (.rbPopt d) s = popFinish s := by
  simp only [exec, execRbPopt, h]

theorem exec_rbPopt_of_poptT1 {s : State} (d : Word) (h : s.me.phase = .poptT1) :
    exec (.rbPopt d) s = checkDeadline .poptT2 s := by
  simp only [exec, execRbPopt, h]

theorem exec_rbPopt_of_poptT2 {s : State} (d : Word) (h : s.me.phase = .poptT2) :
    exec (.rbPopt d) s = .next (s.goto .poptC1) := by
  simp only [exec, execRbPopt, h, State.yield_eq]

/-! ## The holding micro-steps -/

theorem checkDeadline_held {s : State} (l : Phase) (h : s.active < s.ports.length)
    (hrun : dlExpired s.me.tDl s.tick = false) :
    ∃ t, checkDeadline l s = .next t ∧ t.me.phase = l ∧ HeldSame s t := by
  obtain ⟨t, ht, -, ⟨hl, -⟩, -, hgo, he, hs, hd, -⟩ := checkDeadline_effect l h
  obtain ⟨hp, hr⟩ := hgo hrun
  exact ⟨t, ht, hp, hl, he, hs, hd, hr⟩

theorem waitLook_held {s : State} {f : Word} (h : s.active < s.ports.length) (hmiss : s.raisedFlags &&& f = 0) :
    ∃ t, waitLook f s = .next t ∧ t.me.phase = .waitW2 ∧ HeldSame s t := by
  obtain ⟨t, ht, -, hl, -, -, hgo, he, hs, hd, -⟩ := waitLook_effect f h
  obtain ⟨hp, hr⟩ := hgo hmiss
  exact ⟨t, ht, hp, hl, he, hs, hd, hr⟩

/-- C1 loads the read index. -/
theorem popLoadRead_held {s : State} (l : Phase) (h : s.active < s.ports.length) (hr : s.readIndex < s.params.slots) :
    ∃ t, popLoadRead l s = .next t ∧ t.me.phase = l ∧ t.me.tR = s.readIndex ∧ HeldSame s t := by
  have ht : popLoadRead l s = .next (s.updMe fun q => { q with tR := s.readIndex, phase := l }) := by
    simp [popLoadRead, hr]
  refine ⟨_, ht, ?_, ?_, ?_, popLoadRead_elsewhere h ht, updMe_sharedSame .., ?_⟩
  all_goals simp [h, OwnDeadlineSame, OwnResponseSame]

/-- C2 of a timed pop on an empty ring goes on to the deadline test. -/
theorem popLoadWrite_held {s : State} (l l' : Phase) (h : s.active < s.ports.length)
    (hw : s.writeIndex < s.params.slots) (hempty : s.writeIndex = s.me.tR) :
    ∃ t, popLoadWrite l (fun u => u.goto l') s = .next t ∧ t.me.phase = l' ∧ HeldSame s t := by
  have ht := popLoadWrite_next (l := l) (g := fun u => u.goto l') |>.2 ⟨hw, .inl ⟨hempty, rfl⟩⟩
  refine ⟨_, ht, ?_, ?_, popLoadWrite_elsewhere h (fun _ hu => Elsewhere.goto _ hu) ht, updMe_goto_sharedSame .., ?_⟩
  all_goals simp [h, OwnDeadlineSame, OwnResponseSame]

/-! ## The rounds -/

theorem wait_goes_round {s : State} (f d : Word) (hrun : dlExpired s.me.tDl s.tick = false)
    (hp : s.me.phase = .waitW1) (hmiss : s.raisedFlags &&& f = 0) :
    ∃ t, execTimes (.ntfWait f d) 3 s = .next t ∧ t.me.phase = .waitW1 ∧ HeldSame s t := by
  obtain ⟨t, ht, htp, hst⟩ := waitLook_held (active_lt_of_phase hp (by decide)) hmiss
  obtain ⟨u, hu, hup, htu⟩ :=
    checkDeadline_held .waitW3 (active_lt_of_phase htp (by decide)) (hst.dlExpired_eq.trans hrun)
  have hul := active_lt_of_phase hup (by decide)
  refine ⟨u.goto .waitW1, ?_, by simp [hul], (hst.trans htu).trans (HeldSame.goto hul)⟩
  rw [execTimes_succ ((exec_ntfWait_of_waitW1 f d hp).trans ht),
    execTimes_succ ((exec_ntfWait_of_waitW2 f d htp).trans hu),
    execTimes_succ (exec_ntfWait_of_waitW3 f d hup), execTimes]

theorem popt_goes_round {s : State} (d : Word) (hrun : dlExpired s.me.tDl s.tick = false)
    (hp : s.me.phase = .poptC1) (hempty : s.writeIndex = s.readIndex) (hr : s.readIndex < s.params.slots) :
    ∃ t, execTimes (.rbPopt d) 4 s = .next t ∧ t.me.phase = .poptC1 ∧ HeldSame s t := by
  obtain ⟨t, ht, htp, htR, hst⟩ := popLoadRead_held .poptC2 (active_lt_of_phase hp (by decide)) hr
  have ⟨_, ⟨_, _, _, hpar, _⟩, ⟨_, ⟨hw, _⟩, _⟩, _⟩ := hst
  obtain ⟨u, hu, hup, htu⟩ := popLoadWrite_held .poptC3 .poptT1 (active_lt_of_phase htp (by decide))
    (by rwa [hw, hpar, hempty]) (by rw [hw, htR, hempty])
  obtain ⟨v, hv, hvp, huv⟩ :=
    checkDeadline_held .poptT2 (active_lt_of_phase hup (by decide)) ((hst.trans htu).dlExpired_eq.trans hrun)
  have hvl := active_lt_of_phase hvp (by decide)
  refine ⟨v.goto .poptC1, ?_, by simp [hvl], ((hst.trans htu).trans huv).trans (HeldSame.goto hvl)⟩
  rw [execTimes_succ ((exec_rbPopt_of_poptC1 d hp).trans ht), execTimes_succ ((exec_rbPopt_of_poptC2 d htp).trans hu),
    execTimes_succ ((exec_rbPopt_of_poptT1 d hup).trans hv), execTimes_succ (exec_rbPopt_of_poptT2 d hvp), execTimes]

/-- Settles O26: each round's micro-steps one after the other, each keeping what a held port keeps. -/
theorem heldPortGoesRound : Obligations.HeldPortGoesRound := fun _ hrun =>
  ⟨fun f d hp hmiss => wait_goes_round f d hrun hp hmiss, fun d hp hempty hr => popt_goes_round d hrun hp hempty hr⟩

end Sys2Proof.Machine
end

section
/-! A port's own turn and everything else a step does to it (60_exceptions.md R237, R238), and the wait that nothing but a
reset ends (41_notifier.md R149). -/

namespace Sys2Proof.Machine

/-! ## A busy port in a step -/

/-- A port's own turn is a micro-step of its operation, from a state in which it is that port's turn. -/
theorem step_own_turn {s t : State} {p : Nat} {b : Bool} {o : Opc} (h : step s = .next t)
    (hi : s.nextInput = .micro p b) (ho : (s.port p).phase.opc = some o) :
    ∃ u : State, u.me = s.port p ∧ u.tick = s.tick ∧ exec (o.instr (s.port p).cmd) u = .next t ∧ t.port p = t.me := by
  rw [step_of_micro hi] at h
  obtain ⟨-, ⟨hp, -⟩ | ⟨hp, -⟩ | ⟨i, -, -, hd, hx⟩⟩ := microStep_cases h
  · rw [State.begin_port] at hp
    simp [hp, Phase.opc] at ho
  · rw [State.begin_port] at hp
    simp [hp, Phase.opc] at ho
  · have hme : (s.begin.turn p b).me = s.port p := by simp
    have hinstr : i = o.instr (s.port p).cmd := hme ▸ instr_of_exec (by simpa using hd) hx (by simpa using ho)
    refine ⟨_, hme, by simp, hinstr ▸ hx, ?_⟩
    rw [State.me, (exec_elsewhere hx).active_eq, State.turn_active]

/-- No step but its own turn and the reset changes a busy port's registers. -/
theorem step_port_kept {s t : State} {p : Nat} (h : step s = .next t) (hb : (s.port p).phase ≠ .idle)
    (hr : s.nextInput ≠ .rst) (ht : ∀ b, s.nextInput ≠ .micro p b) : t.port p = s.port p := by
  rcases step_cases h with ⟨-, rfl⟩ | ⟨hi, -⟩ | ⟨q, m, -, hs⟩ | ⟨q, b, hi, hs⟩
  · simp
  · exact absurd hi hr
  · obtain ⟨-, ⟨hq, rfl⟩ | ⟨-, rfl⟩⟩ := issueStep_cases hs
    · have hne : p ≠ q := by
        rintro rfl
        exact hb (by simpa using hq)
      rw [State.port_setPort_ne _ hne, State.begin_port]
    · exact State.begin_port s p
  · have hne : p ≠ q := by
      rintro rfl
      exact ht b hi
    obtain ⟨-, ⟨-, rfl⟩ | ⟨-, rfl⟩ | ⟨i, -, -, -, hx⟩⟩ := microStep_cases hs
    · exact State.begin_port s p
    · rw [State.port_complete_ne _ _ _ (by simpa using hne), State.turn_port, State.begin_port]
    · rw [(exec_elsewhere hx).1 p (by simpa using hne), State.turn_port, State.begin_port]

/-! ## The wait for no flag -/

/-- The loop of NTF.WAIT. -/
def WaitLoop (l : Phase) : Prop := l = .waitW1 ∨ l = .waitW2 ∨ l = .waitW3

theorem WaitLoop.opc {l : Phase} (h : WaitLoop l) : l.opc = some .ntfWait := by
  rcases h with rfl | rfl | rfl <;> rfl

/-- A round of a wait for no flag goes on: W1 finds none, and W2 finds an unlimited deadline not expired. -/
theorem exec_emptyWait {s t : State} {d : Word} (hl : WaitLoop s.me.phase) (hu : s.me.tDl.unlimited = true)
    (hx : exec (.ntfWait 0 d) s = .next t) : WaitLoop t.me.phase ∧ HeldSame s t := by
  rcases hl with hp | hp | hp
  all_goals have hlen := active_lt_of_phase hp (by decide)
  · rw [exec_ntfWait_of_waitW1 0 d hp] at hx
    obtain ⟨u, hxu, hpu, hsu⟩ := waitLook_held hlen (BitVec.and_zero (x := s.raisedFlags))
    cases hxu.symm.trans hx
    exact ⟨.inr (.inl hpu), hsu⟩
  · rw [exec_ntfWait_of_waitW2 0 d hp] at hx
    obtain ⟨u, hxu, hpu, hsu⟩ := checkDeadline_held .waitW3 hlen (dlExpired_of_unlimited hu s.tick)
    cases hxu.symm.trans hx
    exact ⟨.inr (.inr hpu), hsu⟩
  · rw [exec_ntfWait_of_waitW3 0 d hp] at hx
    cases hx
    exact ⟨.inl (by simp [hlen]), HeldSame.goto hlen⟩

/-- Settles O23: a step of another agent keeps the port's registers, and the port's own turn goes round its loop. -/
theorem emptyUnlimitedWaitHangs : Obligations.EmptyUnlimitedWaitHangs := by
  intro s p hwf hloop harg hunl hrst
  have hl : WaitLoop (s.port p).phase := hloop
  obtain ⟨t, ht⟩ := step_goes_on hwf
  refine ⟨t, ht, ?_⟩
  by_cases hown : ∃ b, s.nextInput = .micro p b
  · obtain ⟨b, hb⟩ := hown
    obtain ⟨u, hme, -, hx, hport⟩ := step_own_turn ht hb hl.opc
    have hinstr : Opc.ntfWait.instr (s.port p).cmd = .ntfWait 0 (s.port p).arg1 := by
      rw [Opc.instr, Port.cmd, harg]
    obtain ⟨hlt, hdl, ⟨-, ⟨-, harg', -⟩, -⟩, -⟩ := exec_emptyWait (hme ▸ hl) (hme ▸ hunl) (hinstr ▸ hx)
    rw [hport, harg', hdl, hme]
    exact ⟨hlt, harg, hunl⟩
  · have hbusy : (s.port p).phase ≠ .idle := by
      intro hi
      have hopc := hl.opc
      rw [hi] at hopc
      cases hopc
    rw [step_port_kept ht hbusy hrst (not_exists.1 hown)]
    exact ⟨hloop, harg, hunl⟩

end Sys2Proof.Machine
end

section
/-! What the deadline test of a timed wait answers inside the half-range window (41_notifier.md R155, 40_deadline.md
R123). -/

namespace Sys2Proof.Machine

/-- Inside the half-range window the own deadline is expired exactly when its ticks have passed (40_deadline.md R123). -/
theorem dlExpired_iff_of_window {s : State} {now d : Word} {e : Nat} (hdl : s.me.tDl = dlNew now d)
    (hd : d.toNat ≤ 2 ^ 31) (he : e < d.toNat + 2 ^ 31) (ht : s.tick = now + BitVec.ofNat 32 e) :
    dlExpired s.me.tDl s.tick = true ↔ d.toNat ≤ e := by
  have hsent : d ≠ 0xFFFFFFFF := by
    rintro rfl
    exact absurd hd (by decide)
  rw [hdl, ht]
  exact (dlExpired_right_throughout_iff hsent).2 ⟨hd, he⟩ e le_rfl

/-- The window's two answers at W2 and at T1. -/
theorem checkDeadline_of_window {s : State} {now d : Word} {e : Nat} (l : Phase) (h : s.active < s.ports.length)
    (hdl : s.me.tDl = dlNew now d) (hd : d.toNat ≤ 2 ^ 31) (he : e < d.toNat + 2 ^ 31)
    (ht : s.tick = now + BitVec.ofNat 32 e) :
    ∃ t, checkDeadline l s = .next t ∧ (d.toNat ≤ e → Completed s t false false 0) ∧
      (e < d.toNat → t.me.phase = l) := by
  have hiff := dlExpired_iff_of_window hdl hd he ht
  obtain ⟨t, hx, -, -, hdone, hgo, -⟩ := checkDeadline_effect l h
  refine ⟨t, hx, fun hle => hdone (hiff.2 hle), fun hlt => ?_⟩
  have hrun : dlExpired s.me.tDl s.tick = false := Bool.eq_false_iff.2 fun hexp => absurd (hiff.1 hexp) (by omega)
  obtain ⟨hphase, -⟩ := hgo hrun
  exact hphase

end Sys2Proof.Machine
end

section
/-! The end of the timed waits in fair executions (60_exceptions.md R234, R237, 70_reset_and_hazards.md R277): the
operation comes to the deadline test that ends it. -/

namespace Sys2Proof.Machine

/-! ## The way to the deadline test -/

/-- How many micro-steps a timed operation past its first one is from its next deadline test, at most; C3 and C4 of a
timed pop end the operation instead. -/
def toConsult : Phase → Option Nat
  | .waitW2 | .poptT1 => some 0
  | .waitW1 | .poptC4 => some 1
  | .waitW3 | .poptC3 => some 2
  | .poptC2 => some 3
  | .poptC1 => some 4
  | .poptT2 => some 5
  | _ => none

theorem consults_of_toConsult {l : Phase} (h : toConsult l = some 0) : l.consults = true := by
  cases l <;> simp_all [toConsult, Phase.consults]

theorem ne_idle_of_consults {l : Phase} (h : l.consults = true) : l ≠ .idle := by
  rintro rfl
  cases h

theorem opc_of_consults {l : Phase} (h : l.consults = true) : ∃ o, l.opc = some o := by
  refine opc_of_busy (ne_idle_of_consults h) ?_
  rintro rfl
  cases h

theorem opc_of_toConsult {l : Phase} {k : Nat} (h : toConsult l = some k) :
    l.opc = some .ntfWait ∨ l.opc = some .rbPopt := by
  cases l <;> simp_all [toConsult, Phase.opc]

/-- From `l` the operation ends or stays in its loop, and comes nearer its test unless `l` is the test. -/
def nearer (l l' : Phase) : Bool :=
  l' == .idle ||
    match toConsult l, toConsult l' with
    | some k, some j => k == 0 || j < k
    | _, _ => false

theorem nearer_cases {l l' : Phase} (h : nearer l l' = true) :
    l' = .idle ∨ ∃ j, toConsult l' = some j ∧ ∀ k, toConsult l = some (k + 1) → j < k + 1 := by
  rcases Bool.or_eq_true_iff.1 h with h | h
  · exact .inl (by simpa using h)
  · refine .inr ?_
    split at h
    · next k j hk hj =>
      refine ⟨j, hj, fun i hi => ?_⟩
      rw [hk] at hi
      cases hi
      simpa using h
    · cases h

/-! ## One micro-step of a timed operation -/

/-- What a micro-step in the loop of a timed operation does: it goes on from its label and keeps the own deadline. -/
def PollsOn (s t : State) : Prop := nearer s.me.phase t.me.phase = true ∧ t.me.tDl = s.me.tDl

theorem checkDeadline_phase {l : Phase} {s t : State} (h : s.active < s.ports.length)
    (hx : checkDeadline l s = .next t) : (t.me.phase = .idle ∨ t.me.phase = l) ∧ t.me.tDl = s.me.tDl := by
  rcases checkDeadline_next.1 hx with ⟨-, rfl⟩ | ⟨-, rfl⟩ <;> simp [h, Port.respond]

theorem ntfWait_pollsOn {s t : State} {f d : Word} {k : Nat} (hk : toConsult s.me.phase = some k)
    (hx : exec (.ntfWait f d) s = .next t) : PollsOn s t := by
  have hl : s.me.phase ∈ opcLabels .ntfWait := mem_opcLabels (opc_phase_of_exec hx)
  simp only [opcLabels, List.mem_cons, List.not_mem_nil, or_false] at hl
  rcases hl with hp | hp | hp | hp
  all_goals have hlen := active_lt_of_phase hp (by decide)
  · rw [hp] at hk
    cases hk
  · rw [exec_ntfWait_of_waitW1 f d hp] at hx
    rcases waitLook_next.1 hx with ⟨-, rfl⟩ | ⟨-, rfl⟩ <;> simp [PollsOn, hp, hlen, Port.respond, nearer, toConsult]
  · rw [exec_ntfWait_of_waitW2 f d hp] at hx
    obtain ⟨hq | hq, hdl⟩ := checkDeadline_phase hlen hx <;> simp [PollsOn, hp, hq, hdl, nearer, toConsult]
  · rw [exec_ntfWait_of_waitW3 f d hp] at hx
    cases hx
    simp [PollsOn, hp, hlen, nearer, toConsult]

theorem rbPopt_pollsOn {s t : State} {d : Word} {k : Nat} (hk : toConsult s.me.phase = some k)
    (hx : exec (.rbPopt d) s = .next t) : PollsOn s t := by
  have hl : s.me.phase ∈ opcLabels .rbPopt := mem_opcLabels (opc_phase_of_exec hx)
  simp only [opcLabels, List.mem_cons, List.not_mem_nil, or_false] at hl
  rcases hl with hp | hp | hp | hp | hp | hp | hp
  all_goals have hlen := active_lt_of_phase hp (by decide)
  · rw [hp] at hk
    cases hk
  · rw [exec_rbPopt_of_poptC1 d hp] at hx
    obtain ⟨-, hx⟩ := State.loadReadIndex_next.1 hx
    cases hx
    simp [PollsOn, hp, hlen, nearer, toConsult]
  · rw [exec_rbPopt_of_poptC2 d hp] at hx
    obtain ⟨-, ⟨-, rfl⟩ | ⟨-, rfl⟩⟩ := popLoadWrite_next.1 hx <;> simp [PollsOn, hp, hlen, nearer, toConsult]
  · rw [exec_rbPopt_of_poptC3 d hp] at hx
    obtain ⟨-, hx⟩ := State.memRead_next.1 hx
    cases hx
    simp [PollsOn, hp, hlen, nearer, toConsult]
  · rw [exec_rbPopt_of_poptC4 d hp] at hx
    cases hx
    simp [PollsOn, hp, hlen, Port.respond, nearer, toConsult]
  · rw [exec_rbPopt_of_poptT1 d hp] at hx
    obtain ⟨hq | hq, hdl⟩ := checkDeadline_phase hlen hx <;> simp [PollsOn, hp, hq, hdl, nearer, toConsult]
  · rw [exec_rbPopt_of_poptT2 d hp] at hx
    cases hx
    simp [PollsOn, hp, hlen, nearer, toConsult]

/-- W0 and T0 make the operation's deadline and enter its loop. -/
theorem startDeadline_enters {s t : State} {d : Word} {l : Phase} (h : s.active < s.ports.length)
    (hx : startDeadline d l s = .next t) : t.me.phase = l ∧ t.me.tDl = dlNew s.tick d := by
  cases hx
  simp [h, State.loadTick]

/-- A consultation is a deadline test, whichever of the two operations consults. -/
theorem checkDeadline_of_consults {i : Instr} {s t : State} (hc : s.me.phase.consults = true)
    (hx : exec i s = .next t) : ∃ l, checkDeadline l s = .next t := by
  have hopc := opc_phase_of_exec hx
  cases hp : s.me.phase <;> simp only [hp, Phase.consults, Bool.false_eq_true] at hc <;> rw [hp] at hopc
  case waitW2 =>
    cases i <;> cases hopc
    exact ⟨_, (exec_ntfWait_of_waitW2 _ _ hp).symm.trans hx⟩
  case poptT1 =>
    cases i <;> cases hopc
    exact ⟨_, (exec_rbPopt_of_poptT1 _ hp).symm.trans hx⟩

/-- A consultation that finds the deadline expired ends the operation. -/
theorem exec_ends_of_expired {i : Instr} {s t : State} (hc : s.me.phase.consults = true)
    (hexp : dlExpired s.me.tDl s.tick = true) (hx : exec i s = .next t) : t.me.phase = .idle := by
  have hlen : s.active < s.ports.length := State.lt_length_of_busy (ne_idle_of_consults hc)
  obtain ⟨l, hl⟩ := checkDeadline_of_consults hc hx
  obtain ⟨u, hu, -, -, hdone, -⟩ := checkDeadline_effect l hlen
  cases hu.symm.trans hl
  obtain ⟨hidle, -⟩ := hdone hexp
  exact hidle

/-! ## A turn of a timed operation in an execution -/

section Executions

variable {sched : Nat → Input} {run : Nat → State} (he : Execution sched run) {n p : Nat} {b : Bool}
include he

/-- A port's own turn in an execution. -/
theorem Execution.own_turn {o : Opc} (h : sched n = .micro p b) (ho : ((run n).port p).phase.opc = some o) :
    ∃ u : State, u.me = (run n).port p ∧ u.tick = (run n).tick ∧
      exec (o.instr ((run n).port p).cmd) u = .next (run (n + 1)) ∧ (run (n + 1)).port p = (run (n + 1)).me :=
  step_own_turn (s := (run n).offered (sched n)) (he n) (by rw [State.offered_nextInput, h]) ho

/-- The turn at W0 or T0. -/
theorem Execution.enters_loop {d : Word} (h : sched n = .micro p b)
    (hstart : ((run n).port p).phase = .waitW0 ∧ ((run n).port p).arg1 = d ∨
      ((run n).port p).phase = .poptT0 ∧ ((run n).port p).arg0 = d) :
    (∃ k, toConsult ((run (n + 1)).port p).phase = some k) ∧ ((run (n + 1)).port p).tDl = dlNew (run n).tick d := by
  rcases hstart with ⟨hp, rfl⟩ | ⟨hp, rfl⟩
  · obtain ⟨u, hme, htick, hx, hport⟩ := he.own_turn h (o := .ntfWait) (by rw [hp]; rfl)
    have hpu : u.me.phase = .waitW0 := hme ▸ hp
    rw [Opc.instr, exec_ntfWait_of_waitW0 _ _ hpu] at hx
    obtain ⟨hq, hdl⟩ := startDeadline_enters (active_lt_of_phase hpu (by decide)) hx
    rw [hport, hq, hdl, htick]
    exact ⟨⟨1, rfl⟩, rfl⟩
  · obtain ⟨u, hme, htick, hx, hport⟩ := he.own_turn h (o := .rbPopt) (by rw [hp]; rfl)
    have hpu : u.me.phase = .poptT0 := hme ▸ hp
    rw [Opc.instr, exec_rbPopt_of_poptT0 _ hpu] at hx
    obtain ⟨hq, hdl⟩ := startDeadline_enters (active_lt_of_phase hpu (by decide)) hx
    rw [hport, hq, hdl, htick]
    exact ⟨⟨4, rfl⟩, rfl⟩

/-- A turn in the loop. -/
theorem Execution.polls_on {k : Nat} (h : sched n = .micro p b) (hk : toConsult ((run n).port p).phase = some k) :
    nearer ((run n).port p).phase ((run (n + 1)).port p).phase = true ∧
      ((run (n + 1)).port p).tDl = ((run n).port p).tDl := by
  rcases opc_of_toConsult hk with ho | ho
  · obtain ⟨u, hme, -, hx, hport⟩ := he.own_turn h ho
    rw [hport, ← hme]
    exact ntfWait_pollsOn (hme ▸ hk) hx
  · obtain ⟨u, hme, -, hx, hport⟩ := he.own_turn h ho
    rw [hport, ← hme]
    exact rbPopt_pollsOn (hme ▸ hk) hx

/-- A consultation of an expired deadline. -/
theorem Execution.ends_of_expired (h : ConsultsAt sched run p n)
    (hexp : dlExpired ((run n).port p).tDl (run n).tick = true) : ((run (n + 1)).port p).phase = .idle := by
  obtain ⟨hc, b, hb⟩ := h
  obtain ⟨o, ho⟩ := opc_of_consults hc
  obtain ⟨u, hme, htick, hx, hport⟩ := he.own_turn hb ho
  rw [hport]
  exact exec_ends_of_expired (hme ▸ hc) (by rwa [hme, htick]) hx

/-! ## An operation that never ended -/

variable (hr : ∀ k, sched k ≠ .rst) (hbusy : ∀ m, n ≤ m → ((run m).port p).phase ≠ .idle)
include hr hbusy

/-- It would stay in its loop with its deadline. -/
theorem Execution.stays_in_loop {dl : Deadline}
    (h : (∃ k, toConsult ((run n).port p).phase = some k) ∧ ((run n).port p).tDl = dl) {m : Nat} (hm : n ≤ m) :
    (∃ k, toConsult ((run m).port p).phase = some k) ∧ ((run m).port p).tDl = dl := by
  induction m, hm using Nat.le_induction with
  | base => exact h
  | succ m hm ih =>
    obtain ⟨⟨k, hk⟩, hdl⟩ := ih
    by_cases hown : ∃ b, sched m = .micro p b
    · obtain ⟨b, hb⟩ := hown
      obtain ⟨hnear, hdl'⟩ := he.polls_on hb hk
      obtain ⟨j, hj, -⟩ := (nearer_cases hnear).resolve_left (hbusy (m + 1) (by omega))
      exact ⟨⟨j, hj⟩, hdl'.trans hdl⟩
    · rw [he.port_kept (hbusy m hm) (hr m) (not_exists.1 hown)]
      exact ⟨⟨k, hk⟩, hdl⟩

/-- In a fair execution it would come to a deadline test again and again. -/
theorem Execution.consults_again (hf : Fair sched run) {k : Nat} (hk : toConsult ((run n).port p).phase = some k) :
    ∃ m, n ≤ m ∧ ConsultsAt sched run p m := by
  induction k using Nat.strong_induction_on generalizing n with
  | _ k ih =>
    obtain ⟨m, b, hm, hb, hport⟩ := hf.next_turn he hr hbusy
    rw [← hport] at hk
    cases k with
    | zero => exact ⟨m, hm, consults_of_toConsult hk, b, hb⟩
    | succ k =>
      obtain ⟨hnear, -⟩ := he.polls_on hb hk
      obtain ⟨j, hj, hlt⟩ := (nearer_cases hnear).resolve_left (hbusy (m + 1) (by omega))
      obtain ⟨m', hm', hc⟩ := ih j (hlt k hk) (fun i hi => hbusy i (by omega)) hj
      exact ⟨m', by omega, hc⟩

end Executions

/-- The operation whose deadline of `d` ticks was made at time `n` ends: if it did not, it would consult its deadline
after expiry, and the first such consultation, which comes in time, ends it. -/
theorem timedWait_ends {sched : Nat → Input} {run : Nat → State} (he : Execution sched run) (hf : Fair sched run)
    (hr : ∀ k, sched k ≠ .rst) {n p : Nat} {b : Bool} {d : Word} (hn : sched n = .micro p b)
    (hstart : ((run n).port p).phase = .waitW0 ∧ ((run n).port p).arg1 = d ∨
      ((run n).port p).phase = .poptT0 ∧ ((run n).port p).arg0 = d)
    (hd : d ≠ 0xFFFFFFFF) (hin : ConsultedInTime sched run p n d) : ∃ m, n < m ∧ ((run m).port p).phase = .idle := by
  by_contra hnever
  have hbusy' : ∀ m, n + 1 ≤ m → ((run m).port p).phase ≠ .idle := fun m hm hi => hnever ⟨m, hm, hi⟩
  have hbusy : ∀ m, n ≤ m → ((run m).port p).phase ≠ .idle := by
    intro m hm
    rcases hm.eq_or_lt with rfl | hlt
    · rcases hstart with ⟨hp, -⟩ | ⟨hp, -⟩ <;> rw [hp] <;> decide
    · exact hbusy' m hlt
  have hloop := fun {m : Nat} => he.stays_in_loop hr hbusy' (he.enters_loop hn hstart) (m := m)
  have hlate : ∃ m, n < m ∧ ConsultsAt sched run p m ∧ d.toNat ≤ elapsed sched n m := by
    obtain ⟨e, hne, hle⟩ := hf.elapsed_unbounded n d.toNat
    obtain ⟨⟨k, hk⟩, -⟩ := hloop (m := e + 1) (by omega)
    obtain ⟨m, hm, hc⟩ := he.consults_again hr (fun i hi => hbusy i (by omega)) hf hk
    exact ⟨m, by omega, hc, hle.trans (elapsed_mono sched hne (by omega))⟩
  classical
  obtain ⟨hlt, hc, hge⟩ := Nat.find_spec hlate
  have hearlier : ∀ j, n < j → j < Nat.find hlate → ConsultsAt sched run p j → elapsed sched n j < d.toNat :=
    fun j hj hjm hcj => Nat.lt_of_not_le fun hle => Nat.find_min hlate hjm ⟨hj, hcj, hle⟩
  have hnear := hin _ hlt (fun k hk _ => hbusy k hk) hc hearlier
  have hexp : dlExpired ((run (Nat.find hlate)).port p).tDl (run (Nat.find hlate)).tick = true := by
    rw [(hloop hlt).2, he.tick_elapsed hlt.le hr]
    exact dlExpired_after hd hge hnear
  exact hbusy _ (by omega) (he.ends_of_expired hc hexp)

/-- Settles O15: the window's answers come from the truth window of the evaluator, the end of the operation from
fairness. -/
theorem timeoutNeverEarly : Obligations.TimeoutNeverEarly := by
  refine ⟨fun s now d e hdl hd he ht => ⟨fun f a hp => ?_, fun a hp => ?_⟩,
    fun sched run he hf hr n p b d hn hstart hd hin => timedWait_ends he hf hr hn hstart hd hin⟩
  · rw [exec_ntfWait_of_waitW2 f a hp]
    exact checkDeadline_of_window .waitW3 (active_lt_of_phase hp (by decide)) hdl hd he ht
  · rw [exec_rbPopt_of_poptT1 a hp]
    exact checkDeadline_of_window .poptT2 (active_lt_of_phase hp (by decide)) hdl hd he ht

end Sys2Proof.Machine
end

section
/-! The index arithmetic of the ring and the abstract queue (10_state.md R29, 42_ringbuffer.md R173, R185): how the size
moves with either index, and what a store to an index makes of the queue. -/

namespace Sys2Proof.Machine

/-! ## Indices -/

/-- The next index without the remainder. -/
theorem nextIdx_eq_ite {c : Params} {i : Nat} (h : i < c.slots) :
    nextIdx c i = if i = c.slots - 1 then 0 else i + 1 := by
  unfold nextIdx
  split
  · next hi => rw [hi, Nat.sub_add_cancel (by omega), Nat.mod_self]
  · exact Nat.mod_eq_of_lt (by omega)

theorem nextIdx_lt (c : Params) (i : Nat) : nextIdx c i < c.slots :=
  Nat.mod_lt _ (Nat.succ_pos _)

theorem nextIdx_inj {c : Params} {i j : Nat} (hi : i < c.slots) (hj : j < c.slots) (h : nextIdx c i = nextIdx c j) :
    i = j := by
  rw [nextIdx_eq_ite hi, nextIdx_eq_ite hj] at h
  split_ifs at h <;> omega

/-- A remainder of a sum of two indices. -/
theorem mod_slots_eq_ite {c : Params} {n : Nat} (h : n < 2 * c.slots) :
    n % c.slots = if n < c.slots then n else n - c.slots := by
  split
  · next hn => exact Nat.mod_eq_of_lt hn
  · rw [Nat.mod_eq_sub_mod (by omega), Nat.mod_eq_of_lt (by omega)]

/-! ## The size -/

section Size

variable {c : Params} {w r : Nat} (hw : w < c.slots) (hr : r < c.slots)

include hw hr

/-- The size without the remainder. -/
theorem ringSize_eq_ite : ringSize c w r = if r ≤ w then w - r else w + c.slots - r := by
  unfold ringSize
  split
  · rw [Int.emod_eq_of_lt (by omega) (by omega)]
    omega
  · rw [← Int.add_emod_right, Int.emod_eq_of_lt (by omega) (by omega)]
    omega

theorem ringSize_lt : ringSize c w r < c.slots := by
  rw [ringSize_eq_ite hw hr]
  split <;> omega

theorem ringSize_eq_zero_iff : ringSize c w r = 0 ↔ w = r := by
  rw [ringSize_eq_ite hw hr]
  split <;> omega

/-- The ring is full exactly with `CAPACITY` elements (10_state.md R29). -/
theorem ringFull_iff : ringFull c w r = true ↔ ringSize c w r = c.capacity := by
  have hslots : c.slots = c.capacity + 1 := rfl
  rw [ringFull, beq_iff_eq, ringSize_eq_ite hw hr, nextIdx_eq_ite hw]
  split_ifs <;> omega

/-- The slot after the last live one is that of the write index. -/
theorem add_ringSize_mod : (r + ringSize c w r) % c.slots = w := by
  have hlt := ringSize_lt hw hr
  rw [mod_slots_eq_ite (by omega), ringSize_eq_ite hw hr]
  split_ifs <;> omega

/-- No live slot is that of the write index. -/
theorem live_ne_writeIndex {k : Nat} (hk : k < ringSize c w r) : (r + k) % c.slots ≠ w := by
  have hlt := ringSize_lt hw hr
  rw [ringSize_eq_ite hw hr] at hk hlt
  rw [mod_slots_eq_ite (by omega)]
  split_ifs at hk ⊢ <;> omega

theorem ringSize_nextIdx_write (hfull : ringFull c w r = false) :
    ringSize c (nextIdx c w) r = ringSize c w r + 1 := by
  have hne : nextIdx c w ≠ r := by simpa [ringFull] using hfull
  rw [ringSize_eq_ite hw hr, ringSize_eq_ite (nextIdx_lt c w) hr]
  rw [nextIdx_eq_ite hw] at hne ⊢
  split_ifs at hne ⊢ <;> omega

theorem ringSize_nextIdx_read (hne : w ≠ r) : ringSize c w (nextIdx c r) + 1 = ringSize c w r := by
  rw [ringSize_eq_ite hw hr, ringSize_eq_ite hw (nextIdx_lt c r), nextIdx_eq_ite hr]
  split_ifs <;> omega

end Size

theorem ringSize_self (c : Params) (i : Nat) : ringSize c i i = 0 := by
  simp [ringSize]

theorem ringSize_zero_right {c : Params} {w : Nat} (hw : w < c.slots) : ringSize c w 0 = w := by
  rw [ringSize_eq_ite hw (by omega), if_pos (Nat.zero_le w), Nat.sub_zero]

/-- The slot `k + 1` places after an index is `k` places after the next one. -/
theorem nextIdx_add_mod (c : Params) (r k : Nat) : (nextIdx c r + k) % c.slots = (r + (k + 1)) % c.slots := by
  rw [nextIdx, Nat.mod_add_mod, Nat.add_right_comm, Nat.add_assoc]

/-- Settles O27: the remainder of `i + 1` is cut off at the last slot only. -/
theorem nextIndexWraps : Obligations.NextIndexWraps := fun c i hi => ⟨nextIdx_lt c i, nextIdx_eq_ite hi⟩

/-! ## The abstract queue -/

namespace State

theorem length_queue (s : State) : s.queue.length = ringSize s.params s.writeIndex s.readIndex := by
  simp [queue, count]

theorem queue_of_indices_eq {s : State} (h : s.writeIndex = s.readIndex) : s.queue = [] := by
  rw [← List.length_eq_zero_iff, length_queue, h, ringSize_self]

theorem queue_eq_nil_iff {s : State} (hw : s.writeIndex < s.params.slots) (hr : s.readIndex < s.params.slots) :
    s.queue = [] ↔ s.writeIndex = s.readIndex := by
  rw [← List.length_eq_zero_iff, length_queue, ringSize_eq_zero_iff hw hr]

/-- A ring has room exactly with fewer than `CAPACITY` elements. -/
theorem ringFull_eq_false_of_room {s : State} (hw : s.writeIndex < s.params.slots) (hr : s.readIndex < s.params.slots)
    (h : s.queue.length < s.params.capacity) : ringFull s.params s.writeIndex s.readIndex = false := by
  rw [length_queue] at h
  exact Bool.eq_false_iff.2 fun hfull => h.ne ((ringFull_iff hw hr).1 hfull)

section Stores

variable {s t : State} (hp : t.params = s.params)

include hp

/-- The same indices and the same live slots are the same queue. -/
theorem queue_congr (hi : IndicesSame s t)
    (hs : ∀ k, k < s.count →
      t.slot ((s.readIndex + k) % s.params.slots) = s.slot ((s.readIndex + k) % s.params.slots)) :
    t.queue = s.queue := by
  obtain ⟨hwi, hri⟩ := hi
  simp only [queue, count, hp, hwi, hri]
  exact List.map_congr_left fun k hk => hs k (List.mem_range.1 hk)

variable (hw : s.writeIndex < s.params.slots) (hr : s.readIndex < s.params.slots)

include hw hr

/-- Where there is room, the next write index appends what its slot holds (42_ringbuffer.md R185). -/
theorem queue_append (hwi : t.writeIndex = nextIdx s.params s.writeIndex) (hri : t.readIndex = s.readIndex)
    (hroom : ringFull s.params s.writeIndex s.readIndex = false)
    (hs : ∀ i, i ≠ s.writeIndex → t.slot i = s.slot i) : t.queue = s.queue ++ [t.slot s.writeIndex] := by
  simp only [queue, count, hp, hwi, hri, ringSize_nextIdx_write hw hr hroom, List.range_succ, List.map_append,
    List.map_singleton, add_ringSize_mod hw hr]
  congr 1
  exact List.map_congr_left fun k hk => hs _ (live_ne_writeIndex hw hr (List.mem_range.1 hk))

/-- Where there is an element, the next read index takes the head off (42_ringbuffer.md R185). -/
theorem queue_take (hwi : t.writeIndex = s.writeIndex) (hri : t.readIndex = nextIdx s.params s.readIndex)
    (hne : s.writeIndex ≠ s.readIndex) (hs : ∀ i, t.slot i = s.slot i) : s.queue = s.slot s.readIndex :: t.queue := by
  simp only [queue, count, hp, hwi, hri, ← ringSize_nextIdx_read hw hr hne, List.range_succ_eq_map, List.map_cons,
    List.map_map, Nat.add_zero, Nat.mod_eq_of_lt hr]
  congr 1
  exact List.map_congr_left fun k _ => by simp [nextIdx_add_mod, hs]

end Stores

/-- The head of a queue is the slot of the read index. -/
theorem queue_head {s : State} (hr : s.readIndex < s.params.slots) {v : Elem} {rest : List Elem}
    (h : s.queue = v :: rest) : v = s.slot s.readIndex := by
  have hhead : s.queue.head? = some v := by rw [h, List.head?_cons]
  have hpos : s.count ≠ 0 := by
    intro h0
    simp [queue, h0] at h
  obtain ⟨n, hn⟩ := Nat.exists_eq_succ_of_ne_zero hpos
  simpa [queue, hn, List.range_succ_eq_map, Nat.mod_eq_of_lt hr, eq_comm] using hhead

end State

end Sys2Proof.Machine
end

section
/-! The micro-steps of the ring's operations, each as an equation and with its frame (42_ringbuffer.md R176 to R181). -/

namespace Sys2Proof.Machine

/-! ## RB.PUSH -/

section Push

variable {s : State} (v : Elem)

theorem exec_rbPush_of_pushP1 (h : s.me.phase = .pushP1) (hw : s.writeIndex < s.params.slots) :
    exec (.rbPush v) s = .next (s.updMe fun q => { q with tW := s.writeIndex, phase := .pushP2 }) := by
  simp [exec, execRbPush, h, hw]

theorem exec_rbPush_of_full (h : s.me.phase = .pushP2) (hr : s.readIndex < s.params.slots)
    (hfull : ringFull s.params s.me.tW s.readIndex = true) :
    exec (.rbPush v) s = .next ((s.updMe fun q => { q with tR := s.readIndex }).complete false false 0) := by
  simp [exec, execRbPush, h, hr, hfull]

theorem exec_rbPush_of_room (h : s.me.phase = .pushP2) (hr : s.readIndex < s.params.slots)
    (hroom : ringFull s.params s.me.tW s.readIndex = false) :
    exec (.rbPush v) s = .next ((s.updMe fun q => { q with tR := s.readIndex }).goto .pushP3) := by
  simp [exec, execRbPush, h, hr, hroom]

theorem exec_rbPush_of_pushP3 (h : s.me.phase = .pushP3) (hw : s.me.tW < s.params.slots) :
    exec (.rbPush v) s = .next ((s.storeSlot s.me.tW v).goto .pushP4) := by
  simp [exec, execRbPush, h, hw]

theorem exec_rbPush_of_pushP4 (h : s.me.phase = .pushP4) :
    exec (.rbPush v) s = .next ((s.storeWriteIndex (nextIdx s.params s.me.tW)).complete false true 0) := by
  simp only [exec, execRbPush, h]

/-- All P1 does, whatever the element (42_ringbuffer.md R176). -/
theorem exec_rbPush_pushP1_effect (hp : s.me.phase = .pushP1) (hw : s.writeIndex < s.params.slots) :
    ∃ t, exec (.rbPush v) s = .next t ∧ t.me.tW = s.writeIndex ∧ t.me.phase = .pushP2 ∧ t.me.tR = s.me.tR ∧
      t.me.tV = s.me.tV ∧ t.me.tNow = s.me.tNow ∧ OwnWaitLocalsSame s t ∧ Elsewhere s t ∧ SharedSame s t ∧
      OwnDeadlineSame s t ∧ OwnResponseSame s t := by
  have hlen := active_lt_of_phase hp (by decide)
  have hx := exec_rbPush_of_pushP1 v hp hw
  refine ⟨_, hx, ?_, ?_, ?_, ?_, ?_, ?_, exec_elsewhere hx, updMe_sharedSame .., ?_⟩
  all_goals simp [hlen, OwnWaitLocalsSame, OwnDeadlineSame, OwnResponseSame]

/-- All P2 does, whatever the element, with both outcomes of the test for room. -/
theorem exec_rbPush_pushP2_effect (hp : s.me.phase = .pushP2) (hr : s.readIndex < s.params.slots) :
    ∃ t, exec (.rbPush v) s = .next t ∧ t.me.tR = s.readIndex ∧ t.me.tW = s.me.tW ∧ t.me.tV = s.me.tV ∧
      ((s.me.tW + 1) % s.params.slots = s.readIndex → Completed s t false false 0) ∧
      ((s.me.tW + 1) % s.params.slots ≠ s.readIndex → t.me.phase = .pushP3 ∧ OwnResponseSame s t) ∧
      t.me.tNow = s.me.tNow ∧ OwnWaitLocalsSame s t ∧ Elsewhere s t ∧ SharedSame s t ∧ OwnDeadlineSame s t := by
  have hlen := active_lt_of_phase hp (by decide)
  by_cases hfull : (s.me.tW + 1) % s.params.slots = s.readIndex
  · have hx := exec_rbPush_of_full v hp hr (by simpa [ringFull, nextIdx] using hfull)
    refine ⟨_, hx, ?_, ?_, ?_, fun _ => updMe_complete_completed _ _ _ _ hlen, fun hroom => absurd hfull hroom,
      ?_, ?_, exec_elsewhere hx, updMe_complete_sharedSame .., ?_⟩
    all_goals simp [hlen, Port.respond, OwnWaitLocalsSame, OwnDeadlineSame]
  · have hx := exec_rbPush_of_room v hp hr (by simpa [ringFull, nextIdx] using hfull)
    refine ⟨_, hx, ?_, ?_, ?_, fun h => absurd h hfull, fun _ => ?_, ?_, ?_, exec_elsewhere hx,
      updMe_goto_sharedSame .., ?_⟩
    all_goals simp [hlen, OwnWaitLocalsSame, OwnDeadlineSame, OwnResponseSame]

/-- All P4 does, whatever the element. -/
theorem exec_rbPush_pushP4_effect (hp : s.me.phase = .pushP4) : ∃ t, exec (.rbPush v) s = .next t ∧
    t.writeIndex = (s.me.tW + 1) % s.params.slots ∧ t.readIndex = s.readIndex ∧ Completed s t false true 0 ∧
    FlagsSame s t ∧ StorageSame s t ∧
    t.me.tNow = s.me.tNow ∧ OwnWaitLocalsSame s t ∧ OwnRingLocalsSame s t ∧ Elsewhere s t ∧ OwnDeadlineSame s t := by
  have hlen := active_lt_of_phase hp (by decide)
  have hx := exec_rbPush_of_pushP4 v hp
  refine ⟨_, hx, rfl, rfl, ?_, rfl, ?_, ?_, ?_, ?_, exec_elsewhere hx, ?_⟩
  all_goals simp [hlen, Completed, Port.respond, StorageSame, OwnWaitLocalsSame, OwnRingLocalsSame, OwnDeadlineSame]

end Push

/-- Settles O29: the byte is RB.PUSH's, and each label's micro-step is read off its equation. -/
theorem pushMicroSteps : Obligations.PushMicroSteps := by
  refine ⟨fun m hm => decode_of_ofByte (o := .rbPush) (hm ▸ Opc.ofByte_byte .rbPush), fun s v hv =>
    ⟨exec_rbPush_pushP1_effect v, exec_rbPush_pushP2_effect v, fun hp htw => ?_, exec_rbPush_pushP4_effect v⟩⟩
  have hlen := active_lt_of_phase hp (by decide)
  have hx := exec_rbPush_of_pushP3 v hp htw
  refine ⟨_, hx, ?_, fun i hi => ?_, ?_, ?_, ?_, ?_, ?_, ?_, exec_elsewhere hx, ?_⟩
  · simp [truncElem_of_lt hv]
  · simp [hi]
  all_goals simp [hlen, FlagsSame, IndicesSame, OwnWaitLocalsSame, OwnRingLocalsSame, OwnDeadlineSame, OwnResponseSame]

/-! ## The micro-steps RB.POP and RB.POPT share -/

section Pop

variable {s : State}

/-- All C1 does (42_ringbuffer.md R177). -/
theorem popLoadRead_effect (l : Phase) (hlen : s.active < s.ports.length) (hr : s.readIndex < s.params.slots) :
    ∃ t, popLoadRead l s = .next t ∧ t.me.tR = s.readIndex ∧ t.me.phase = l ∧ t.me.tW = s.me.tW ∧
      t.me.tV = s.me.tV ∧ t.me.tNow = s.me.tNow ∧ OwnWaitLocalsSame s t ∧ Elsewhere s t ∧ SharedSame s t ∧
      OwnDeadlineSame s t ∧ OwnResponseSame s t := by
  have hx : popLoadRead l s = .next (s.updMe fun q => { q with tR := s.readIndex, phase := l }) := by
    simp [popLoadRead, hr]
  refine ⟨_, hx, ?_, ?_, ?_, ?_, ?_, ?_, popLoadRead_elsewhere hlen hx, updMe_sharedSame .., ?_⟩
  all_goals simp [hlen, OwnWaitLocalsSame, OwnDeadlineSame, OwnResponseSame]

/-- All C2 does where it goes on to the label `l`, with an element found or, in RB.POPT, without one. -/
theorem updMe_tW_goto_effect (w : Nat) (l : Phase) (hlen : s.active < s.ports.length) :
    let t := (s.updMe fun q => { q with tW := w }).goto l
    t.me.tW = w ∧ t.me.tR = s.me.tR ∧ t.me.tV = s.me.tV ∧ t.me.phase = l ∧ t.me.tNow = s.me.tNow ∧
      OwnWaitLocalsSame s t ∧ SharedSame s t ∧ OwnDeadlineSame s t ∧ OwnResponseSame s t := by
  refine ⟨?_, ?_, ?_, ?_, ?_, ?_, updMe_goto_sharedSame .., ?_⟩
  all_goals simp [hlen, OwnWaitLocalsSame, OwnDeadlineSame, OwnResponseSame]

/-- All C3 does: the element is read while the slot is still the consumer's. -/
theorem popRead_effect (l : Phase) (hlen : s.active < s.ports.length) (hr : s.me.tR < s.params.slots) :
    ∃ t, popRead l s = .next t ∧ t.me.tV = s.slot s.me.tR ∧ t.me.phase = l ∧ t.me.tW = s.me.tW ∧
      t.me.tR = s.me.tR ∧ t.me.tNow = s.me.tNow ∧ OwnWaitLocalsSame s t ∧ Elsewhere s t ∧ SharedSame s t ∧
      OwnDeadlineSame s t ∧ OwnResponseSame s t := by
  have hx : popRead l s = .next (s.updMe fun q => { q with tV := s.slot s.me.tR, phase := l }) := by
    simp [popRead, hr]
  refine ⟨_, hx, ?_, ?_, ?_, ?_, ?_, ?_, popRead_elsewhere hlen hx, updMe_sharedSame .., ?_⟩
  all_goals simp [hlen, OwnWaitLocalsSame, OwnDeadlineSame, OwnResponseSame]

/-- An element is no wider than a result (20_memory.md R62). -/
theorem zextData_elem {c : Params} {v : Elem} (h : v < 2 ^ c.elemW) : zextData c v = v :=
  if_pos (h.trans_le (Nat.pow_le_pow_right (by decide) (le_max_right 32 c.elemW)))

/-- All C4 does: the slot is given back and the element answered. -/
theorem popFinish_effect (hlen : s.active < s.ports.length) (hv : s.me.tV < 2 ^ s.params.elemW) :
    ∃ t, popFinish s = .next t ∧ t.readIndex = (s.me.tR + 1) % s.params.slots ∧ t.writeIndex = s.writeIndex ∧
      Completed s t false true s.me.tV ∧ FlagsSame s t ∧ StorageSame s t ∧ t.me.tNow = s.me.tNow ∧
      OwnWaitLocalsSame s t ∧ OwnRingLocalsSame s t ∧ Elsewhere s t ∧ OwnDeadlineSame s t := by
  refine ⟨_, rfl, rfl, rfl, ?_, rfl, ?_, ?_, ?_, ?_, popFinish_elsewhere hlen rfl, ?_⟩
  all_goals simp [hlen, zextData_elem hv, Completed, Port.respond, StorageSame, OwnWaitLocalsSame, OwnRingLocalsSame,
    OwnDeadlineSame]

/-! ## RB.POP -/

theorem exec_rbPop_of_popC1 (h : s.me.phase = .popC1) : exec .rbPop s = popLoadRead .popC2 s := by
  simp only [exec, execRbPop, h]

theorem exec_rbPop_of_popC2 (h : s.me.phase = .popC2) :
    exec .rbPop s = popLoadWrite .popC3 (fun t => t.complete false false 0) s := by
  simp only [exec, execRbPop, h]

theorem exec_rbPop_of_popC3 (h : s.me.phase = .popC3) : exec .rbPop s = popRead .popC4 s := by
  simp only [exec, execRbPop, h]

theorem exec_rbPop_of_popC4 (h : s.me.phase = .popC4) : exec .rbPop s = popFinish s := by
  simp only [exec, execRbPop, h]

end Pop

/-- Settles O32: C2's two outcomes here, the other labels by the shared micro-steps. -/
theorem popMicroSteps : Obligations.PopMicroSteps := by
  refine ⟨fun m hm => decode_of_ofByte (o := .rbPop) (hm ▸ Opc.ofByte_byte .rbPop), fun s =>
    ⟨fun hp hr => ?_, fun hp hw => ?_, fun hp hr => ?_, fun hp hv => ?_⟩⟩
  all_goals have hlen := active_lt_of_phase hp (by decide)
  · rw [exec_rbPop_of_popC1 hp]
    exact popLoadRead_effect .popC2 hlen hr
  · have hx := exec_rbPop_of_popC2 hp
    by_cases hempty : s.me.tR = s.writeIndex
    · rw [popLoadWrite_next.2 ⟨hw, .inl ⟨hempty.symm, rfl⟩⟩] at hx
      refine ⟨_, hx, ?_, ?_, ?_, fun _ => updMe_complete_completed _ _ _ _ hlen, fun h => absurd hempty h, ?_, ?_,
        exec_elsewhere hx, updMe_complete_sharedSame .., ?_⟩
      all_goals simp [hlen, Port.respond, OwnWaitLocalsSame, OwnDeadlineSame]
    · rw [popLoadWrite_next.2 ⟨hw, .inr ⟨Ne.symm hempty, rfl⟩⟩] at hx
      obtain ⟨htw, htr, htv, hphase, hnow, hwait, hshared, hdl, hrsp⟩ :=
        updMe_tW_goto_effect s.writeIndex .popC3 hlen
      exact ⟨_, hx, htw, htr, htv, fun h => absurd h hempty, fun _ => ⟨hphase, hrsp⟩, hnow, hwait, exec_elsewhere hx,
        hshared, hdl⟩
  · rw [exec_rbPop_of_popC3 hp]
    exact popRead_effect .popC4 hlen hr
  · rw [exec_rbPop_of_popC4 hp]
    exact popFinish_effect hlen hv

/-- Settles O35: C2 goes on whatever it finds; the other labels are the shared micro-steps of the pops and of the timed
waits. -/
theorem poptMicroSteps : Obligations.PoptMicroSteps := by
  refine ⟨fun m hm => decode_of_ofByte (o := .rbPopt) (hm ▸ Opc.ofByte_byte .rbPopt), fun s d =>
    ⟨fun hp => ?_, fun hp hr => ?_, fun hp hw => ?_, fun hp hr => ?_, fun hp hv => ?_, fun hp => ?_, fun hp => ?_⟩⟩
  all_goals have hlen := active_lt_of_phase hp (by decide)
  · rw [exec_rbPopt_of_poptT0 d hp]
    exact startDeadline_effect d .poptC1 hlen
  · rw [exec_rbPopt_of_poptC1 d hp]
    exact popLoadRead_effect .poptC2 hlen hr
  · have hx := exec_rbPopt_of_poptC2 d hp
    by_cases hempty : s.me.tR = s.writeIndex
    · rw [popLoadWrite_next.2 ⟨hw, .inl ⟨hempty.symm, rfl⟩⟩] at hx
      obtain ⟨htw, htr, htv, hphase, hnow, hwait, hshared, hdl, hrsp⟩ :=
        updMe_tW_goto_effect s.writeIndex .poptT1 hlen
      exact ⟨_, hx, htw, htr, htv, fun _ => hphase, fun h => absurd hempty h, hnow, hwait, exec_elsewhere hx, hshared,
        hdl, hrsp⟩
    · rw [popLoadWrite_next.2 ⟨hw, .inr ⟨Ne.symm hempty, rfl⟩⟩] at hx
      obtain ⟨htw, htr, htv, hphase, hnow, hwait, hshared, hdl, hrsp⟩ :=
        updMe_tW_goto_effect s.writeIndex .poptC3 hlen
      exact ⟨_, hx, htw, htr, htv, fun h => absurd h hempty, fun _ => hphase, hnow, hwait, exec_elsewhere hx, hshared,
        hdl, hrsp⟩
  · rw [exec_rbPopt_of_poptC3 d hp]
    exact popRead_effect .poptC4 hlen hr
  · rw [exec_rbPopt_of_poptC4 d hp]
    exact popFinish_effect hlen hv
  · rw [exec_rbPopt_of_poptT1 d hp]
    exact checkDeadline_effect .poptT2 hlen
  · exact ⟨_, exec_rbPopt_of_poptT2 d hp, goto_effect .poptC1 hlen⟩

/-! ## RB.CLEAR -/

section Clear

variable {s : State}

theorem exec_rbClear_write_first (h : s.me.phase = .clearK) (hb : s.swap = false) :
    exec .rbClear s = .next ((s.storeWriteIndex 0).goto .clearK2) := by
  simp [exec, execRbClear, h, hb]

theorem exec_rbClear_read_first (h : s.me.phase = .clearK) (hb : s.swap = true) :
    exec .rbClear s = .next ((s.storeReadIndex 0).goto .clearK1) := by
  simp [exec, execRbClear, h, hb]

theorem exec_rbClear_of_clearK1 (h : s.me.phase = .clearK1) :
    exec .rbClear s = .next ((s.storeWriteIndex 0).complete false true 0) := by
  simp only [exec, execRbClear, h]

theorem exec_rbClear_of_clearK2 (h : s.me.phase = .clearK2) :
    exec .rbClear s = .next ((s.storeReadIndex 0).complete false true 0) := by
  simp only [exec, execRbClear, h]

/-- All the first store of RB.CLEAR does, in the order the turn says (42_ringbuffer.md R179). -/
theorem exec_rbClear_first_effect (hp : s.me.phase = .clearK) : ∃ t, exec .rbClear s = .next t ∧
    (s.swap = false → t.writeIndex = 0 ∧ t.readIndex = s.readIndex ∧ t.me.phase = .clearK2) ∧
    (s.swap = true → t.readIndex = 0 ∧ t.writeIndex = s.writeIndex ∧ t.me.phase = .clearK1) ∧
    FlagsSame s t ∧ StorageSame s t ∧ Elsewhere s t ∧ OwnDeadlineSame s t ∧ OwnResponseSame s t ∧
    t.me.tNow = s.me.tNow ∧ OwnWaitLocalsSame s t ∧ OwnRingLocalsSame s t := by
  have hlen := active_lt_of_phase hp (by decide)
  cases hb : s.swap
  · have hx := exec_rbClear_write_first hp hb
    refine ⟨_, hx, ?_, ?_, rfl, ?_, exec_elsewhere hx, ?_⟩
    all_goals simp [hlen, StorageSame, OwnDeadlineSame, OwnResponseSame, OwnWaitLocalsSame, OwnRingLocalsSame]
  · have hx := exec_rbClear_read_first hp hb
    refine ⟨_, hx, ?_, ?_, rfl, ?_, exec_elsewhere hx, ?_⟩
    all_goals simp [hlen, StorageSame, OwnDeadlineSame, OwnResponseSame, OwnWaitLocalsSame, OwnRingLocalsSame]

theorem exec_rbClear_clearK1_effect (hp : s.me.phase = .clearK1) : ∃ t, exec .rbClear s = .next t ∧
    t.writeIndex = 0 ∧ t.readIndex = s.readIndex ∧ Completed s t false true 0 ∧ FlagsSame s t ∧ StorageSame s t ∧
    Elsewhere s t ∧ OwnDeadlineSame s t ∧ t.me.tNow = s.me.tNow ∧ OwnWaitLocalsSame s t ∧ OwnRingLocalsSame s t := by
  have hlen := active_lt_of_phase hp (by decide)
  have hx := exec_rbClear_of_clearK1 hp
  refine ⟨_, hx, rfl, rfl, ?_, rfl, ?_, exec_elsewhere hx, ?_⟩
  all_goals simp [hlen, Completed, Port.respond, StorageSame, OwnDeadlineSame, OwnWaitLocalsSame, OwnRingLocalsSame]

theorem exec_rbClear_clearK2_effect (hp : s.me.phase = .clearK2) : ∃ t, exec .rbClear s = .next t ∧
    t.readIndex = 0 ∧ t.writeIndex = s.writeIndex ∧ Completed s t false true 0 ∧ FlagsSame s t ∧ StorageSame s t ∧
    Elsewhere s t ∧ OwnDeadlineSame s t ∧ t.me.tNow = s.me.tNow ∧ OwnWaitLocalsSame s t ∧ OwnRingLocalsSame s t := by
  have hlen := active_lt_of_phase hp (by decide)
  have hx := exec_rbClear_of_clearK2 hp
  refine ⟨_, hx, rfl, rfl, ?_, rfl, ?_, exec_elsewhere hx, ?_⟩
  all_goals simp [hlen, Completed, Port.respond, StorageSame, OwnDeadlineSame, OwnWaitLocalsSame, OwnRingLocalsSame]

theorem StorageSame.trans {s t u : State} (h : StorageSame s t) (k : StorageSame t u) : StorageSame s u :=
  fun i => ⟨(k i).1.trans (h i).1, (k i).2.trans (h i).2⟩

/-- Either order of the two stores ends with both indices 0. -/
theorem execTimes_rbClear (hp : s.me.phase = .clearK) : ∃ t, execTimes .rbClear 2 s = .next t ∧ t.writeIndex = 0 ∧
    t.readIndex = 0 ∧ Completed s t false true 0 ∧ FlagsSame s t ∧ StorageSame s t := by
  obtain ⟨t, ht, hwrite, hread, hflags, hstore, helse, -⟩ := exec_rbClear_first_effect hp
  rw [execTimes_succ ht]
  cases hb : s.swap
  · obtain ⟨hw, -, hphase⟩ := hwrite hb
    obtain ⟨u, hu, hr, hw', hdone, hflags', hstore', -⟩ := exec_rbClear_clearK2_effect hphase
    exact ⟨u, execTimes_succ hu, hw'.trans hw, hr, helse.completed hdone, hflags'.trans hflags, hstore.trans hstore'⟩
  · obtain ⟨hr, -, hphase⟩ := hread hb
    obtain ⟨u, hu, hw, hr', hdone, hflags', hstore', -⟩ := exec_rbClear_clearK1_effect hphase
    exact ⟨u, execTimes_succ hu, hw, hr'.trans hr, helse.completed hdone, hflags'.trans hflags, hstore.trans hstore'⟩

end Clear

/-- Settles O37: each store by its equation; with both indices 0 the queue is empty. -/
theorem clearEitherOrder : Obligations.ClearEitherOrder := by
  refine ⟨fun m hm => decode_of_ofByte (o := .rbClear) (hm ▸ Opc.ofByte_byte .rbClear), fun s =>
    ⟨exec_rbClear_first_effect, exec_rbClear_clearK1_effect, exec_rbClear_clearK2_effect, fun hp => ?_⟩⟩
  obtain ⟨t, ht, hw, hr, hdone, hflags, hstore⟩ := execTimes_rbClear hp
  exact ⟨t, ht, hw, hr, State.queue_of_indices_eq (hw.trans hr.symm), hdone, hflags, hstore⟩

/-! ## RB.SIZE and RB.CAP -/

section Size

variable {s : State} (hw : s.writeIndex < s.params.slots) (hr : s.readIndex < s.params.slots)

theorem exec_rbSize_write_first (h : s.me.phase = .sizeQ) (hb : s.swap = false) (hw : s.writeIndex < s.params.slots) :
    exec .rbSize s = .next (s.updMe fun q => { q with tW := s.writeIndex, phase := .sizeQ2 }) := by
  simp [exec, execRbSize, h, hb, hw]

theorem exec_rbSize_read_first (h : s.me.phase = .sizeQ) (hb : s.swap = true) (hr : s.readIndex < s.params.slots) :
    exec .rbSize s = .next (s.updMe fun q => { q with tR := s.readIndex, phase := .sizeQ1 }) := by
  simp [exec, execRbSize, h, hb, hr]

theorem exec_rbSize_of_sizeQ1 (h : s.me.phase = .sizeQ1) (hw : s.writeIndex < s.params.slots) :
    exec .rbSize s = .next ((s.updMe fun q => { q with tW := s.writeIndex }).complete false true
      (zextData s.params (ringSize s.params s.writeIndex s.me.tR))) := by
  simp [exec, execRbSize, h, hw]

theorem exec_rbSize_of_sizeQ2 (h : s.me.phase = .sizeQ2) (hr : s.readIndex < s.params.slots) :
    exec .rbSize s = .next ((s.updMe fun q => { q with tR := s.readIndex }).complete false true
      (zextData s.params (ringSize s.params s.me.tW s.readIndex))) := by
  simp [exec, execRbSize, h, hr]

include hw hr in
/-- All the first load of RB.SIZE does, in the order the turn says (42_ringbuffer.md R180). -/
theorem exec_rbSize_first_effect (hp : s.me.phase = .sizeQ) : ∃ t, exec .rbSize s = .next t ∧
    (s.swap = false → t.me.tW = s.writeIndex ∧ t.me.tR = s.me.tR ∧ t.me.phase = .sizeQ2) ∧
    (s.swap = true → t.me.tR = s.readIndex ∧ t.me.tW = s.me.tW ∧ t.me.phase = .sizeQ1) ∧
    t.me.tV = s.me.tV ∧ t.me.tNow = s.me.tNow ∧ OwnWaitLocalsSame s t ∧ Elsewhere s t ∧ SharedSame s t ∧
    OwnDeadlineSame s t ∧ OwnResponseSame s t := by
  have hlen := active_lt_of_phase hp (by decide)
  cases hb : s.swap
  · have hx := exec_rbSize_write_first hp hb hw
    refine ⟨_, hx, ?_, ?_, ?_, ?_, ?_, exec_elsewhere hx, updMe_sharedSame .., ?_⟩
    all_goals simp [hlen, OwnWaitLocalsSame, OwnDeadlineSame, OwnResponseSame]
  · have hx := exec_rbSize_read_first hp hb hr
    refine ⟨_, hx, ?_, ?_, ?_, ?_, ?_, exec_elsewhere hx, updMe_sharedSame .., ?_⟩
    all_goals simp [hlen, OwnWaitLocalsSame, OwnDeadlineSame, OwnResponseSame]

theorem exec_rbSize_sizeQ1_effect (hp : s.me.phase = .sizeQ1) (hw : s.writeIndex < s.params.slots) :
    ∃ t, exec .rbSize s = .next t ∧ t.me.tW = s.writeIndex ∧ t.me.tR = s.me.tR ∧
      Completed s t false true (zextData s.params (ringSize s.params s.writeIndex s.me.tR)) ∧ t.me.tV = s.me.tV ∧
      t.me.tNow = s.me.tNow ∧ OwnWaitLocalsSame s t ∧ Elsewhere s t ∧ SharedSame s t ∧ OwnDeadlineSame s t := by
  have hlen := active_lt_of_phase hp (by decide)
  have hx := exec_rbSize_of_sizeQ1 hp hw
  refine ⟨_, hx, ?_, ?_, updMe_complete_completed _ _ _ _ hlen, ?_, ?_, ?_, exec_elsewhere hx,
    updMe_complete_sharedSame .., ?_⟩
  all_goals simp [hlen, Port.respond, OwnWaitLocalsSame, OwnDeadlineSame]

theorem exec_rbSize_sizeQ2_effect (hp : s.me.phase = .sizeQ2) (hr : s.readIndex < s.params.slots) :
    ∃ t, exec .rbSize s = .next t ∧ t.me.tR = s.readIndex ∧ t.me.tW = s.me.tW ∧
      Completed s t false true (zextData s.params (ringSize s.params s.me.tW s.readIndex)) ∧ t.me.tV = s.me.tV ∧
      t.me.tNow = s.me.tNow ∧ OwnWaitLocalsSame s t ∧ Elsewhere s t ∧ SharedSame s t ∧ OwnDeadlineSame s t := by
  have hlen := active_lt_of_phase hp (by decide)
  have hx := exec_rbSize_of_sizeQ2 hp hr
  refine ⟨_, hx, ?_, ?_, updMe_complete_completed _ _ _ _ hlen, ?_, ?_, ?_, exec_elsewhere hx,
    updMe_complete_sharedSame .., ?_⟩
  all_goals simp [hlen, Port.respond, OwnWaitLocalsSame, OwnDeadlineSame]

theorem Elsewhere.params_eq {s t : State} (h : Elsewhere s t) : t.params = s.params := by
  obtain ⟨-, -, -, hparams, -⟩ := h
  exact hparams

theorem SharedSame.indices {s t : State} (h : SharedSame s t) : IndicesSame s t := by
  obtain ⟨-, hindices, -⟩ := h
  exact hindices

include hw hr in
/-- Either order of the two loads, with no other agent between them, answers the number of elements. -/
theorem execTimes_rbSize (hp : s.me.phase = .sizeQ) : ∃ t, execTimes .rbSize 2 s = .next t ∧ SharedSame s t ∧
    Completed s t false true (zextData s.params s.queue.length) := by
  obtain ⟨t, ht, hwrite, hread, -, -, -, helse, hshared, -⟩ := exec_rbSize_first_effect hw hr hp
  obtain ⟨hwi, hri⟩ := hshared.indices
  have hparams := helse.params_eq
  rw [execTimes_succ ht, State.length_queue]
  cases hb : s.swap
  · obtain ⟨htw, -, hphase⟩ := hwrite hb
    obtain ⟨u, hu, -, -, hdone, -, -, -, -, hshared', -⟩ :=
      exec_rbSize_sizeQ2_effect hphase (by rwa [hri, hparams])
    rw [hparams, htw, hri] at hdone
    exact ⟨u, execTimes_succ hu, hshared.trans hshared', helse.completed hdone⟩
  · obtain ⟨htr, -, hphase⟩ := hread hb
    obtain ⟨u, hu, -, -, hdone, -, -, -, -, hshared', -⟩ :=
      exec_rbSize_sizeQ1_effect hphase (by rwa [hwi, hparams])
    rw [hparams, htr, hwi] at hdone
    exact ⟨u, execTimes_succ hu, hshared.trans hshared', helse.completed hdone⟩

end Size

/-- Settles O38: each load by its equation, and both orders one after the other. -/
theorem sizeEitherOrder : Obligations.SizeEitherOrder :=
  ⟨fun _ hm => decode_of_ofByte (o := .rbSize) (hm ▸ Opc.ofByte_byte .rbSize), fun _ hw hr =>
    ⟨exec_rbSize_first_effect hw hr, fun hp => exec_rbSize_sizeQ1_effect hp hw,
      fun hp => exec_rbSize_sizeQ2_effect hp hr, execTimes_rbSize hw hr⟩⟩

/-- A1 as an equation (42_ringbuffer.md R181). -/
theorem exec_rbCap_of_capA1 {s : State} (h : s.me.phase = .capA1) :
    exec .rbCap s = .next (s.complete false true (zextData s.params s.params.capacity)) := by
  simp only [exec, execRbCap, h]

/-- Settles O39: A1 is `complete` with the capacity. -/
theorem capAnswersCapacity : Obligations.CapAnswersCapacity := by
  refine ⟨fun m hm => decode_of_ofByte (o := .rbCap) (hm ▸ Opc.ofByte_byte .rbCap), fun s hp => ?_⟩
  have hlen := active_lt_of_phase hp (by decide)
  have hx := exec_rbCap_of_capA1 hp
  refine ⟨_, hx, ?_, fun hfits => ?_, exec_elsewhere hx, ?_⟩
  · simp [hlen, Completed, Port.respond]
  · simp [hlen, Port.respond, zextData, hfits, Params.slots]
  · simp [hlen, Port.respond, SharedSame, FlagsSame, IndicesSame, StorageSame, OwnDeadlineSame, OwnWaitLocalsSame,
      OwnRingLocalsSame]

end Sys2Proof.Machine
end

section
/-! Runs of ring operations: uninterrupted ones (42_ringbuffer.md R183, R184, R187), and the two races that break the
disciplines (R190, R191). -/

namespace Sys2Proof.Machine

/-! ## Steps that leave the ring as it is -/

/-- The ring's registers and the parameters they are read with are unchanged. -/
def RingSame (s t : State) : Prop := t.params = s.params ∧ IndicesSame s t ∧ StorageSame s t

namespace RingSame

variable {s t u : State}

theorem trans (h : RingSame s t) (k : RingSame t u) : RingSame s u := by
  obtain ⟨hp, ⟨hw, hr⟩, hs⟩ := h
  obtain ⟨kp, ⟨kw, kr⟩, ks⟩ := k
  exact ⟨kp.trans hp, ⟨kw.trans hw, kr.trans hr⟩, hs.trans ks⟩

theorem of_shared (he : Elsewhere s t) (hs : SharedSame s t) : RingSame s t := by
  obtain ⟨-, hindices, hstore⟩ := hs
  exact ⟨he.params_eq, hindices, hstore⟩

/-- The registers the queue is read from, one by one. -/
theorem of_registers (hparams : t.params = s.params) (hw : t.writeIndex = s.writeIndex) (hr : t.readIndex = s.readIndex)
    (hstore : t.storage = s.storage) (hepoch : t.epoch = s.epoch) : RingSame s t :=
  ⟨hparams, ⟨hw, hr⟩, fun i => ⟨by rw [hstore], by simp only [State.slot, hstore, hparams, hepoch]⟩⟩

/-- Taking up an input and giving a port its turn touches no register of the ring. -/
theorem begin_turn (s : State) (p : Nat) (b : Bool) : RingSame s (s.begin.turn p b) :=
  of_registers (by simp) (by simp) (by simp) (by simp) (by simp)

theorem queue_eq (h : RingSame s t) : t.queue = s.queue := by
  obtain ⟨hp, hi, hs⟩ := h
  exact State.queue_congr hp hi fun k _ => (hs _).2

end RingSame

/-! ## Uninterrupted runs -/

/-- Settles O31: P2 finds the next index of the one P1 loaded equal to the read index. -/
theorem pushOnFullFails : Obligations.PushOnFullFails := by
  intro s v hwf hp hlength
  obtain ⟨-, -, hw, hr, -⟩ := State.wf_iff.1 hwf
  have hfull : (s.writeIndex + 1) % s.params.slots = s.readIndex := by
    simpa [ringFull, nextIdx] using (ringFull_iff hw hr).2 ((State.length_queue s).symm.trans hlength)
  obtain ⟨t, ht, htw, htp, -, -, -, -, helse, hshared, -⟩ := exec_rbPush_pushP1_effect v hp hw
  obtain ⟨-, htr⟩ := hshared.indices
  obtain ⟨u, hu, -, -, -, hdone, -, -, -, helse', hshared', -⟩ :=
    exec_rbPush_pushP2_effect v htp (by rwa [htr, helse.params_eq])
  exact ⟨u, (execTimes_succ ht).trans (execTimes_succ hu),
    helse.completed (hdone (by rw [htw, htr, helse.params_eq, hfull])), hshared.trans hshared',
    (RingSame.of_shared (helse.trans helse') (hshared.trans hshared')).queue_eq⟩

/-- A pop on an empty ring ends after C1 and C2. -/
theorem execTimes_rbPop_empty {s : State} (hp : s.me.phase = .popC1) (hr : s.readIndex < s.params.slots)
    (hempty : s.writeIndex = s.readIndex) :
    ∃ t, execTimes .rbPop 2 s = .next t ∧ Completed s t false false 0 ∧ SharedSame s t := by
  obtain ⟨t, ht, htr, htp, -, -, -, -, helse, hshared, -⟩ := (popMicroSteps.2 s).1 hp hr
  obtain ⟨htw, -⟩ := hshared.indices
  obtain ⟨u, hu, -, -, -, hdone, -, -, -, -, hshared', -⟩ :=
    (popMicroSteps.2 t).2.1 htp (by rwa [htw, helse.params_eq, hempty])
  exact ⟨u, (execTimes_succ ht).trans (execTimes_succ hu),
    helse.completed (hdone (by rw [htr, htw, hempty])), hshared.trans hshared'⟩

/-- Settles O34: an empty queue has equal indices. -/
theorem popOnEmptyAnswers : Obligations.PopOnEmptyAnswers := by
  intro s hwf hp hempty
  obtain ⟨-, -, hw, hr, -⟩ := State.wf_iff.1 hwf
  exact execTimes_rbPop_empty hp hr ((State.queue_eq_nil_iff hw hr).1 hempty)

/-- What a pop that finds an element does from its C1 to its end: the head is answered and given back, and nothing else
shared changes (42_ringbuffer.md R177). -/
def Popped (s x : State) : Prop :=
  Completed s x false true (s.slot s.readIndex) ∧ x.params = s.params ∧
    x.readIndex = nextIdx s.params s.readIndex ∧ x.writeIndex = s.writeIndex ∧ FlagsSame s x ∧ StorageSame s x

namespace Popped

variable {s t x : State}

/-- Micro-steps before it that change nothing shared make no difference. -/
theorem after (he : Elsewhere s t) (hs : SharedSame s t) (h : Popped t x) : Popped s x := by
  obtain ⟨hdone, hparams, hr, hw, hflags, hstore⟩ := h
  obtain ⟨hf, ⟨hw', hr'⟩, hst⟩ := hs
  rw [(hst _).2, hr'] at hdone
  rw [he.params_eq, hr'] at hr
  exact ⟨he.completed hdone, hparams.trans he.params_eq, hr, hw.trans hw', hflags.trans hf, hst.trans hstore⟩

/-- The queue loses its head, which is what is answered. -/
theorem queue_eq (h : Popped s x) (hw : s.writeIndex < s.params.slots) (hr : s.readIndex < s.params.slots)
    (hne : s.writeIndex ≠ s.readIndex) : s.queue = s.slot s.readIndex :: x.queue := by
  obtain ⟨-, hparams, hr', hw', -, hstore⟩ := h
  exact State.queue_take hparams hw hr hw' hr' hne fun i => (hstore i).2

end Popped

/-- C1 to C4 on a ring with an element, whatever the labels and whatever C2 would do on an empty ring
(42_ringbuffer.md R177, R178). -/
theorem pop_run {s : State} (l₂ l₃ l₄ : Phase) (g : State → State) (hlen : s.active < s.ports.length)
    (hbusy : l₂ ≠ .idle ∧ l₃ ≠ .idle ∧ l₄ ≠ .idle) (hw : s.writeIndex < s.params.slots)
    (hr : s.readIndex < s.params.slots) (hv : s.slot s.readIndex < 2 ^ s.params.elemW)
    (hne : s.writeIndex ≠ s.readIndex) :
    ∃ t u v x, popLoadRead l₂ s = .next t ∧ t.me.phase = l₂ ∧ popLoadWrite l₃ g t = .next u ∧ u.me.phase = l₃ ∧
      popRead l₄ u = .next v ∧ v.me.phase = l₄ ∧ popFinish v = .next x ∧ Popped s x := by
  obtain ⟨h2, h3, h4⟩ := hbusy
  obtain ⟨t, ht, htR, htp, -, -, -, -, hte, hts, -⟩ := popLoadRead_effect l₂ hlen hr
  obtain ⟨htw, -⟩ := hts.indices
  have htl := active_lt_of_phase htp h2
  obtain ⟨-, huR, -, hup, -, -, hus, -⟩ := updMe_tW_goto_effect t.writeIndex l₃ htl
  have hu := popLoadWrite_next (l := l₃) (g := g) |>.2
    ⟨by rwa [htw, hte.params_eq], .inr ⟨by rwa [htw, htR], rfl⟩⟩
  have hue := Elsewhere.updMe_goto (s := t) (f := fun q => { q with tW := t.writeIndex }) l₃ htl ⟨rfl, rfl, rfl, rfl⟩
  have hsu := hts.trans hus
  obtain ⟨v, hv', hvV, hvp, -, hvR, -, -, hve, hvs, -⟩ := popRead_effect l₄ (active_lt_of_phase hup h3)
    (by rw [huR, htR, hue.params_eq, hte.params_eq]; exact hr)
  have helse := (hte.trans hue).trans hve
  have hvalue : v.me.tV = s.slot s.readIndex := by
    obtain ⟨-, -, hstore⟩ := hsu
    rw [hvV, huR, htR, (hstore _).2]
  obtain ⟨x, hx, hxr, hxw, hxd, hxf, hxs, -, -, -, hxe, -⟩ := popFinish_effect (active_lt_of_phase hvp h4)
    (by rwa [hvalue, helse.params_eq])
  rw [hvalue] at hxd
  obtain ⟨hflags, ⟨hw', -⟩, hstore⟩ := hsu.trans hvs
  refine ⟨t, _, v, x, ht, htp, hu, hup, hv', hvp, hx, helse.completed hxd, hxe.params_eq.trans helse.params_eq, ?_,
    hxw.trans hw', hxf.trans hflags, hstore.trans hxs⟩
  rw [hxr, hvR, huR, htR, helse.params_eq, nextIdx]

section NonEmpty

variable {s : State} (hw : s.writeIndex < s.params.slots) (hr : s.readIndex < s.params.slots)
  (hv : s.slot s.readIndex < 2 ^ s.params.elemW) (hne : s.writeIndex ≠ s.readIndex)

include hw hr hv hne

theorem execTimes_rbPop_of_ne (hp : s.me.phase = .popC1) : ∃ x, execTimes .rbPop 4 s = .next x ∧ Popped s x := by
  obtain ⟨t, u, v, x, ht, htp, hu, hup, hv', hvp, hx, hpop⟩ :=
    pop_run .popC2 .popC3 .popC4 _ (active_lt_of_phase hp (by decide)) (by decide) hw hr hv hne
  refine ⟨x, ?_, hpop⟩
  rw [execTimes_succ ((exec_rbPop_of_popC1 hp).trans ht), execTimes_succ ((exec_rbPop_of_popC2 htp).trans hu),
    execTimes_succ ((exec_rbPop_of_popC3 hup).trans hv'), execTimes_succ ((exec_rbPop_of_popC4 hvp).trans hx),
    execTimes]

theorem execTimes_rbPopt_of_ne (d : Word) (hp : s.me.phase = .poptT0) :
    ∃ x, execTimes (.rbPopt d) 5 s = .next x ∧ Popped s x := by
  obtain ⟨a, ha, -, -, hap, -, hae, has, -⟩ := startDeadline_effect d .poptC1 (active_lt_of_phase hp (by decide))
  have ⟨_, ⟨haw, har⟩, hstore⟩ := has
  obtain ⟨t, u, v, x, ht, htp, hu, hup, hv', hvp, hx, hpop⟩ :=
    pop_run .poptC2 .poptC3 .poptC4 _ (active_lt_of_phase hap (by decide)) (by decide)
      (by rwa [haw, hae.params_eq]) (by rwa [har, hae.params_eq]) (by rwa [har, (hstore _).2, hae.params_eq])
      (by rwa [haw, har])
  refine ⟨x, ?_, hpop.after hae has⟩
  rw [execTimes_succ ((exec_rbPopt_of_poptT0 d hp).trans ha), execTimes_succ ((exec_rbPopt_of_poptC1 d hap).trans ht),
    execTimes_succ ((exec_rbPopt_of_poptC2 d htp).trans hu), execTimes_succ ((exec_rbPopt_of_poptC3 d hup).trans hv'),
    execTimes_succ ((exec_rbPopt_of_poptC4 d hvp).trans hx), execTimes]

end NonEmpty

/-- A timed pop of timeout 0 on an empty ring: T0, C1, C2, and T1 at the tick of T0. -/
theorem execTimes_rbPopt_zero_empty {s : State} (hp : s.me.phase = .poptT0) (hr : s.readIndex < s.params.slots)
    (hempty : s.writeIndex = s.readIndex) :
    ∃ t, execTimes (.rbPopt 0) 4 s = .next t ∧ Completed s t false false 0 ∧ SharedSame s t := by
  obtain ⟨t, ht, -, htDl, htp, -, hte, hts, -⟩ := startDeadline_effect 0 .poptC1 (active_lt_of_phase hp (by decide))
  obtain ⟨htw, htr⟩ := hts.indices
  obtain ⟨u, hu, hup, hur, huDl, hue, hus, -⟩ := popLoadRead_held .poptC2 (active_lt_of_phase htp (by decide))
    (by rwa [htr, hte.params_eq])
  obtain ⟨huw, -⟩ := hus.indices
  obtain ⟨v, hv, hvp, hvDl, hve, hvs, -⟩ := popLoadWrite_held .poptC3 .poptT1 (active_lt_of_phase hup (by decide))
    (by rwa [huw, htw, hue.params_eq, hte.params_eq, hempty]) (by rw [huw, htw, hur, htr, hempty])
  obtain ⟨x, hx, -, -, hdone, -, -, hxs, -⟩ := checkDeadline_effect .poptT2 (active_lt_of_phase hvp (by decide))
  have hnow : dlExpired v.me.tDl v.tick = true := by
    rw [hvDl, huDl, htDl, hve.tick_eq, hue.tick_eq, hte.tick_eq]
    simpa using dlExpired_after (now := s.tick) (d := 0) (e := 0) (by decide) le_rfl (by decide)
  refine ⟨x, ?_, ((hte.trans hue).trans hve).completed (hdone hnow), ((hts.trans hus).trans hvs).trans hxs⟩
  rw [execTimes_succ ((exec_rbPopt_of_poptT0 0 hp).trans ht), execTimes_succ ((exec_rbPopt_of_poptC1 0 htp).trans hu),
    execTimes_succ ((exec_rbPopt_of_poptC2 0 hup).trans hv), execTimes_succ ((exec_rbPopt_of_poptT1 0 hvp).trans hx),
    execTimes]

/-- Settles O36: on an empty ring both end with nothing found, otherwise both are a `Popped` of the same ring. -/
theorem poptZeroIsPop : Obligations.PoptZeroIsPop := by
  intro s hwf hp s'
  obtain ⟨-, -, hw, hr, -, hrange, -⟩ := State.wf_iff.1 hwf
  obtain ⟨hp', -, -, helse, hshared, -⟩ := goto_effect .popC1 (active_lt_of_phase hp (by decide))
  refine ⟨fun hempty => ?_, fun v rest hqueue => ?_⟩
  · have hi := (State.queue_eq_nil_iff hw hr).1 hempty
    obtain ⟨t, ht, hdone, hst⟩ := execTimes_rbPopt_zero_empty hp hr hi
    obtain ⟨t', ht', hdone', hst'⟩ := execTimes_rbPop_empty (s := s') hp' hr hi
    exact ⟨t, t', ht, ht', hdone, hdone', hst, hshared.trans hst'⟩
  · have hne : s.writeIndex ≠ s.readIndex := fun h => by simp [State.queue_of_indices_eq h] at hqueue
    have hv := State.slot_fits hrange s.readIndex
    obtain ⟨t, ht, hpop⟩ := execTimes_rbPopt_of_ne hw hr hv hne 0 hp
    obtain ⟨t', ht', hpop'⟩ := execTimes_rbPop_of_ne (s := s') hw hr hv hne hp'
    obtain ⟨rfl, rfl⟩ := List.cons.inj (hqueue.symm.trans (hpop.queue_eq hw hr hne))
    obtain ⟨hdone, -, hri, hwi, hflags, hstore⟩ := hpop
    obtain ⟨-, -, hri', hwi', hflags', hstore'⟩ := hpop'.after helse hshared
    obtain ⟨hdone', -⟩ := hpop'
    exact ⟨t, t', ht, ht', hdone, hdone',
      ⟨hflags'.trans hflags.symm, ⟨hwi'.trans hwi.symm, hri'.trans hri.symm⟩,
        fun i => ⟨(hstore' i).1.trans (hstore i).1.symm, (hstore' i).2.trans (hstore i).2.symm⟩⟩, rfl, hwi, hflags,
      hstore⟩

/-! ## Turns of several ports -/

theorem turns_cons {p : Nat} {b : Bool} {i : Instr} {rest : List (Nat × Bool × Instr)} {s t : State}
    (h : exec i (s.turn p b) = .next t) : turns ((p, b, i) :: rest) s = turns rest t := by
  rw [turns, h]

/-- After a port's turn the port whose turn it is, is that port. -/
theorem Elsewhere.me_of_turn {s t : State} {p : Nat} {b : Bool} (h : Elsewhere (s.turn p b) t) : t.me = t.port p := by
  rw [State.me, h.active_eq, State.turn_active]

/-- A micro-step of port `p` that leaves the ring as it is, and the other ports. -/
def TurnSame (p : Nat) (s t : State) : Prop := RingSame s t ∧ ∀ q, q ≠ p → t.port q = s.port q

theorem TurnSame.of_ringSame {s t : State} {p : Nat} {b : Bool} (he : Elsewhere (s.turn p b) t)
    (hr : RingSame (s.turn p b) t) : TurnSame p s t := by
  have hturn : RingSame s (s.turn p b) := .of_registers rfl rfl rfl rfl rfl
  exact ⟨hturn.trans hr, he.1⟩

theorem TurnSame.of_turn {s t : State} {p : Nat} {b : Bool} (he : Elsewhere (s.turn p b) t)
    (hs : SharedSame (s.turn p b) t) : TurnSame p s t :=
  .of_ringSame he (.of_shared he hs)

theorem State.slot_of_read {s : State} {i : Nat} {v : Elem} (h : Memory.read s.storage i = some v) : s.slot i = v := by
  simp [slot, h]

section PushTurns

variable {s : State} {p : Nat} (b : Bool) (v : Elem)

/-- P1 as a turn: the write index is loaded. -/
theorem push_turn_load (hp : (s.port p).phase = .pushP1) (hw : s.writeIndex < s.params.slots) :
    ∃ t, exec (.rbPush v) (s.turn p b) = .next t ∧ (t.port p).phase = .pushP2 ∧ (t.port p).tW = s.writeIndex ∧
      TurnSame p s t := by
  obtain ⟨t, ht, htw, htp, -, -, -, -, he, hs, -⟩ := exec_rbPush_pushP1_effect (s := s.turn p b) v hp hw
  rw [he.me_of_turn] at htw htp
  exact ⟨t, ht, htp, htw, .of_turn he hs⟩

/-- P2 as a turn that finds room. -/
theorem push_turn_room (hp : (s.port p).phase = .pushP2) (hr : s.readIndex < s.params.slots)
    (hroom : ringFull s.params (s.port p).tW s.readIndex = false) :
    ∃ t, exec (.rbPush v) (s.turn p b) = .next t ∧ (t.port p).phase = .pushP3 ∧ (t.port p).tW = (s.port p).tW ∧
      TurnSame p s t := by
  obtain ⟨t, ht, -, htw, -, -, hgo, -, -, he, hs, -⟩ := exec_rbPush_pushP2_effect (s := s.turn p b) v hp hr
  obtain ⟨htp, -⟩ := hgo (by simpa [ringFull, nextIdx] using hroom)
  rw [he.me_of_turn] at htw htp
  exact ⟨t, ht, htp, htw, .of_turn he hs⟩

/-- P3 as a turn: the slot the push loaded holds the element. -/
theorem push_turn_put (hv : v < 2 ^ s.params.elemW) (hp : (s.port p).phase = .pushP3)
    (hw : (s.port p).tW < s.params.slots) :
    ∃ t, exec (.rbPush v) (s.turn p b) = .next t ∧ (t.port p).phase = .pushP4 ∧ (t.port p).tW = (s.port p).tW ∧
      (t.port p).wdata = (s.port p).wdata ∧ t.params = s.params ∧ IndicesSame s t ∧
      Memory.read t.storage (s.port p).tW = some v ∧
      (∀ i, i ≠ (s.port p).tW → t.slot i = s.slot i ∧ Memory.read t.storage i = Memory.read s.storage i) ∧
      ∀ q, q ≠ p → t.port q = s.port q := by
  have hx := exec_rbPush_of_pushP3 (s := s.turn p b) v hp hw
  obtain ⟨-, -, hput, -⟩ := pushMicroSteps.2 (s.turn p b) v hv
  obtain ⟨t, ht, -, hslots, htp, -, hi, -, -, ⟨htw, -⟩, he, -⟩ := hput hp hw
  obtain ⟨-, -, -, hwdata⟩ := he.2.1
  rw [he.me_of_turn] at htw htp hwdata
  refine ⟨t, ht, htp, htw, hwdata, he.params_eq, hi, ?_, hslots, he.1⟩
  cases hx.symm.trans ht
  simp [truncElem_of_lt hv]

/-- P4 as a turn: the index after the loaded one is stored. -/
theorem push_turn_store (hp : (s.port p).phase = .pushP4) :
    ∃ t, exec (.rbPush v) (s.turn p b) = .next t ∧ (t.port p).phase = .idle ∧ (t.port p).rspOk = true ∧
      t.params = s.params ∧ t.writeIndex = nextIdx s.params (s.port p).tW ∧ t.readIndex = s.readIndex ∧
      StorageSame s t ∧ ∀ q, q ≠ p → t.port q = s.port q := by
  obtain ⟨t, ht, hw, hr, ⟨hphase, -, hok, -⟩, -, hstore, -, -, -, he, -⟩ :=
    exec_rbPush_pushP4_effect (s := s.turn p b) v hp
  rw [he.me_of_turn] at hphase hok
  exact ⟨t, ht, hphase, hok, he.params_eq, hw, hr, hstore, he.1⟩

end PushTurns

/-- Both stores of a clear as turns, in either order. -/
theorem clear_turns {s : State} {q : Nat} (b : Bool) (hq : (s.port q).phase = .clearK) :
    ∃ t u, exec .rbClear (s.turn q b) = .next t ∧ exec .rbClear (t.turn q b) = .next u ∧ u.writeIndex = 0 ∧
      u.readIndex = 0 ∧ (u.port q).rspOk = true ∧ u.params = s.params ∧ StorageSame s u ∧
      ∀ p, p ≠ q → u.port p = s.port p := by
  obtain ⟨t, ht, hwrite, hread, -, hstore, he, -⟩ := exec_rbClear_first_effect (s := s.turn q b) hq
  rw [he.me_of_turn] at hwrite hread
  cases b
  · obtain ⟨hw, -, hphase⟩ := hwrite rfl
    obtain ⟨u, hu, hr, hw', ⟨-, -, hok, -⟩, -, hstore', he', -⟩ :=
      exec_rbClear_clearK2_effect (s := t.turn q false) hphase
    rw [he'.me_of_turn] at hok
    exact ⟨t, u, ht, hu, hw'.trans hw, hr, hok, he'.params_eq.trans he.params_eq, StorageSame.trans hstore hstore',
      fun p hp => (he'.1 p hp).trans (he.1 p hp)⟩
  · obtain ⟨hr, -, hphase⟩ := hread rfl
    obtain ⟨u, hu, hw, hr', ⟨-, -, hok, -⟩, -, hstore', he', -⟩ :=
      exec_rbClear_clearK1_effect (s := t.turn q true) hphase
    rw [he'.me_of_turn] at hok
    exact ⟨t, u, ht, hu, hw, hr'.trans hr, hok, he'.params_eq.trans he.params_eq, StorageSame.trans hstore hstore',
      fun p hp => (he'.1 p hp).trans (he.1 p hp)⟩

/-- Settles O59: P4 stores the index after the slot P3 wrote, whatever the clear stored in between. -/
theorem clearRaceResurrects : Obligations.ClearRaceResurrects := by
  intro s p q v b hwf hv hne hp hq hroom push clear
  obtain ⟨-, -, hw, hr, -⟩ := State.wf_iff.1 hwf
  have hfull := State.ringFull_eq_false_of_room hw hr hroom
  obtain ⟨t₁, h₁, hp₁, htw₁, ⟨hpar₁, ⟨hw₁, hr₁⟩, hs₁⟩, ho₁⟩ := push_turn_load false v hp hw
  obtain ⟨t₂, h₂, hp₂, htw₂, ⟨hpar₂, -, hs₂⟩, ho₂⟩ :=
    push_turn_room false v hp₁ (by rwa [hr₁, hpar₁]) (by rwa [htw₁, hr₁, hpar₁])
  have htw := htw₂.trans htw₁
  have hpar := hpar₂.trans hpar₁
  obtain ⟨t₃, h₃, hp₃, htw₃, -, hpar₃, -, hread₃, hslots₃, ho₃⟩ :=
    push_turn_put false v (by rwa [hpar]) hp₂ (by rwa [htw, hpar])
  have hq₃ : t₃.port q = s.port q := ((ho₃ q hne.symm).trans (ho₂ q hne.symm)).trans (ho₁ q hne.symm)
  obtain ⟨t₄, t₅, h₄, h₅, hw₅, hr₅, hok₅, hpar₅, hs₅, ho₅⟩ := clear_turns b (hq₃ ▸ hq)
  obtain ⟨t, h₆, -, hok, hpar₆, hw₆, hr₆, hs₆, ho₆⟩ :=
    push_turn_store (s := t₅) (p := p) false v (by rw [ho₅ p hne, hp₃])
  have hparams : t.params = s.params := ((hpar₆.trans hpar₅).trans hpar₃).trans hpar
  have hwrite : t.writeIndex = (s.writeIndex + 1) % s.params.slots := by
    rw [hw₆, hpar₅, hpar₃, hpar, ho₅ p hne, htw₃, htw, nextIdx]
  have hslot : ∀ k, t.slot k = if k = s.writeIndex then v else s.slot k := by
    intro k
    rw [(hs₆ k).2, (hs₅ k).2]
    split
    · next hk => rw [hk, ← htw, State.slot_of_read hread₃]
    · next hk => rw [(hslots₃ k (by rwa [htw])).1, (hs₂ k).2, (hs₁ k).2]
  refine ⟨t, ?_, hwrite, hr₆.trans hr₅, ?_, hok, by rw [ho₆ q hne.symm, hok₅]⟩
  · rw [turns_cons h₁, turns_cons h₂, turns_cons h₃, turns_cons h₄, turns_cons h₅, turns_cons h₆, turns]
  · have hlt : (s.writeIndex + 1) % s.params.slots < s.params.slots := nextIdx_lt s.params s.writeIndex
    simp only [State.queue, State.count, hparams, hwrite, hr₆.trans hr₅, ringSize_zero_right hlt, Nat.zero_add, hslot]
    refine List.map_congr_left fun k hk => ?_
    rw [Nat.mod_eq_of_lt ((List.mem_range.1 hk).trans hlt)]

/-! ## Two pushes in lock step -/

section LockStep

variable {s : State} {p q : Nat} (v w : Elem) (hne : p ≠ q)

include hne

/-- Both pushes load the same write index, and both find room. -/
theorem lockStep_finds_room (hw : s.writeIndex < s.params.slots) (hr : s.readIndex < s.params.slots)
    (hp : (s.port p).phase = .pushP1) (hq : (s.port q).phase = .pushP1)
    (hroom : ringFull s.params s.writeIndex s.readIndex = false) :
    ∃ t₁ t₂ t₃ t₄, exec (.rbPush v) (s.turn p false) = .next t₁ ∧ exec (.rbPush w) (t₁.turn q false) = .next t₂ ∧
      exec (.rbPush v) (t₂.turn p false) = .next t₃ ∧ exec (.rbPush w) (t₃.turn q false) = .next t₄ ∧
      RingSame s t₄ ∧ ((t₄.port p).phase = .pushP3 ∧ (t₄.port p).tW = s.writeIndex) ∧
      (t₄.port q).phase = .pushP3 ∧ (t₄.port q).tW = s.writeIndex := by
  obtain ⟨t₁, h₁, hp₁, htw₁, hsame₁, ho₁⟩ := push_turn_load false v hp hw
  have ⟨hpar₁, ⟨hw₁, _⟩, _⟩ := hsame₁
  obtain ⟨t₂, h₂, hp₂, htw₂, hsame₂, ho₂⟩ :=
    push_turn_load (s := t₁) (p := q) false w (by rw [ho₁ q hne.symm, hq]) (by rwa [hw₁, hpar₁])
  have hsame := hsame₁.trans hsame₂
  have ⟨hpar, ⟨_, hri⟩, _⟩ := hsame
  have htwp : (t₂.port p).tW = s.writeIndex := by rw [ho₂ p hne, htw₁]
  obtain ⟨t₃, h₃, hp₃, htw₃, hsame₃, ho₃⟩ :=
    push_turn_room (s := t₂) (p := p) false v (by rw [ho₂ p hne, hp₁]) (by rwa [hri, hpar]) (by rwa [htwp, hri, hpar])
  have hsame' := hsame.trans hsame₃
  have ⟨hpar', ⟨_, hri'⟩, _⟩ := hsame'
  have htwq : (t₃.port q).tW = s.writeIndex := by rw [ho₃ q hne.symm, htw₂, hw₁]
  obtain ⟨t₄, h₄, hp₄, htw₄, hsame₄, ho₄⟩ :=
    push_turn_room (s := t₃) (p := q) false w (by rw [ho₃ q hne.symm, hp₂]) (by rwa [hri', hpar'])
      (by rwa [htwq, hri', hpar'])
  exact ⟨t₁, t₂, t₃, t₄, h₁, h₂, h₃, h₄, hsame'.trans hsame₄,
    ⟨by rw [ho₄ p hne, hp₃], by rw [ho₄ p hne, htw₃, htwp]⟩, hp₄, by rw [htw₄, htwq]⟩

/-- Both pushes write the one slot they loaded and store the same next index. -/
theorem lockStep_stores {i : Nat} (hv : v < 2 ^ s.params.elemW) (hw : w < 2 ^ s.params.elemW) (hi : i < s.params.slots)
    (hp : (s.port p).phase = .pushP3 ∧ (s.port p).tW = i) (hq : (s.port q).phase = .pushP3 ∧ (s.port q).tW = i) :
    ∃ t₁ t₂ t₃ t₄, exec (.rbPush v) (s.turn p false) = .next t₁ ∧ exec (.rbPush w) (t₁.turn q false) = .next t₂ ∧
      exec (.rbPush v) (t₂.turn p false) = .next t₃ ∧ exec (.rbPush w) (t₃.turn q false) = .next t₄ ∧
      t₄.params = s.params ∧ t₄.writeIndex = nextIdx s.params i ∧ t₄.readIndex = s.readIndex ∧ t₄.slot i = w ∧
      (∀ k, k ≠ i → t₄.slot k = s.slot k) ∧ ((t₄.port p).phase = .idle ∧ (t₄.port p).rspOk = true) ∧
      (t₄.port q).phase = .idle ∧ (t₄.port q).rspOk = true := by
  obtain ⟨hp, hpi⟩ := hp
  obtain ⟨hq, hqi⟩ := hq
  obtain ⟨t₁, h₁, hp₁, -, -, hpar₁, ⟨-, hri₁⟩, -, hslots₁, ho₁⟩ := push_turn_put false v hv hp (by rwa [hpi])
  have hq₁ : t₁.port q = s.port q := ho₁ q hne.symm
  obtain ⟨t₂, h₂, hp₂, htw₂, -, hpar₂, ⟨-, hri₂⟩, hread₂, hslots₂, ho₂⟩ :=
    push_turn_put (s := t₁) (p := q) false w (by rwa [hpar₁]) (by rw [hq₁, hq]) (by rwa [hq₁, hqi, hpar₁])
  rw [hq₁, hqi] at htw₂ hread₂ hslots₂
  obtain ⟨t₃, h₃, hp₃, hok₃, hpar₃, -, hri₃, hs₃, ho₃⟩ :=
    push_turn_store (s := t₂) (p := p) false v (by rw [ho₂ p hne, hp₁])
  obtain ⟨t₄, h₄, hp₄, hok₄, hpar₄, hwi₄, hri₄, hs₄, ho₄⟩ :=
    push_turn_store (s := t₃) (p := q) false w (by rw [ho₃ q hne.symm, hp₂])
  refine ⟨t₁, t₂, t₃, t₄, h₁, h₂, h₃, h₄, by rw [hpar₄, hpar₃, hpar₂, hpar₁], ?_, by rw [hri₄, hri₃, hri₂, hri₁], ?_,
    fun k hk => ?_, ⟨by rw [ho₄ p hne, hp₃], by rw [ho₄ p hne, hok₃]⟩, hp₄, hok₄⟩
  · rw [hwi₄, ho₃ q hne.symm, htw₂, hpar₃, hpar₂, hpar₁]
  · rw [(hs₄ i).2, (hs₃ i).2, State.slot_of_read hread₂]
  · rw [(hs₄ k).2, (hs₃ k).2, (hslots₂ k hk).1, (hslots₁ k (by rwa [hpi])).1]

end LockStep

/-- Settles O60: the second P3 overwrites the slot of the first, and the second P4 stores the same index again. -/
theorem twoProducersLoseElement : Obligations.TwoProducersLoseElement := by
  intro s p q v w hwf hv hw' hne hp hq hroom one two
  obtain ⟨-, -, hw, hr, -⟩ := State.wf_iff.1 hwf
  have hfull := State.ringFull_eq_false_of_room hw hr hroom
  obtain ⟨t₁, t₂, t₃, t₄, h₁, h₂, h₃, h₄, ⟨hpar, ⟨-, hri⟩, hs⟩, hp₄, hq₄⟩ :=
    lockStep_finds_room v w hne hw hr hp hq hfull
  obtain ⟨t₅, t₆, t₇, t, h₅, h₆, h₇, h₈, hpar', hwi', hri', hslot, hslots, ⟨hpi, hpok⟩, hqi, hqok⟩ :=
    lockStep_stores v w hne (by rwa [hpar]) (by rwa [hpar]) (by rwa [hpar]) hp₄ hq₄
  refine ⟨t, ?_, ?_, hpok, hqok, hpi, hqi⟩
  · rw [turns_cons h₁, turns_cons h₂, turns_cons h₃, turns_cons h₄, turns_cons h₅, turns_cons h₆, turns_cons h₇,
      turns_cons h₈, turns]
  · rw [← hslot]
    exact State.queue_append (hpar'.trans hpar) hw hr (by rw [hwi', hpar]) (hri'.trans hri) hfull
      fun k hk => (hslots k hk).trans (hs k).2

end Sys2Proof.Machine
end

section
/-! Every step keeps a state well formed (10_state.md R35): first the updates micro-steps are made of, then each
operation's micro-steps, then the step. -/

namespace Sys2Proof.Machine

/-! ## The updates -/

namespace State

variable {s : State} (h : s.wf = true)

include h

theorem setPort_wf {p : Nat} {q : Port} (hq : q.wf s.params = true) : (s.setPort p q).wf = true := by
  obtain ⟨hok, hlen, hw, hr, hm, hm', hports, hin, hrsp⟩ := wf_iff.1 h
  refine wf_iff.2 ⟨hok, by simpa using hlen, hw, hr, hm, hm', fun q' hq' => ?_, hin, hrsp⟩
  rcases List.mem_or_eq_of_mem_set hq' with hmem | rfl
  · exact hports q' hmem
  · exact hq

theorem updMe_wf {f : Port → Port} (hq : (f s.me).wf s.params = true) : (s.updMe f).wf = true :=
  setPort_wf h hq

/-- A jump to another label of the operation the latched opcode names. -/
theorem goto_wf {l : Phase} (hlen : s.active < s.params.nports) (hl : Opc.ofByte s.me.op = l.opc) :
    (s.goto l).wf = true := by
  obtain ⟨-, hregs⟩ := Port.wf_iff.1 (port_wf h hlen)
  exact updMe_wf h (Port.wf_iff.2 ⟨.inr hl, hregs⟩)

/-- The end of an operation, with a response of `DATA_W` bits. -/
theorem complete_wf (ill ok : Bool) {d : Nat} (hlen : s.active < s.params.nports) (hd : d < 2 ^ s.params.dataW) :
    (s.complete ill ok d).wf = true := by
  obtain ⟨-, hwdata, hv, -, htw, htr⟩ := Port.wf_iff.1 (port_wf h hlen)
  obtain ⟨hok, hl, hw, hr, hm, hm', hports, hin, -⟩ :=
    wf_iff.1 (updMe_wf (f := fun q => q.respond ill ok d) h (Port.wf_iff.2 ⟨.inl rfl, hwdata, hv, hd, htw, htr⟩))
  exact wf_iff.2 ⟨hok, hl, hw, hr, hm, hm', hports, hin, by simpa using hlen⟩

theorem storeFlags_wf (v : Word) : (s.storeFlags v).wf = true := h

theorem fetchOrFlags_wf (v : Word) : (s.fetchOrFlags v).wf = true := h

theorem storeWriteIndex_wf {v : Nat} (hv : v < s.params.slots) : (s.storeWriteIndex v).wf = true := by
  obtain ⟨hok, hl, -, hrest⟩ := wf_iff.1 h
  exact wf_iff.2 ⟨hok, hl, hv, hrest⟩

theorem storeReadIndex_wf {v : Nat} (hv : v < s.params.slots) : (s.storeReadIndex v).wf = true := by
  obtain ⟨hok, hl, hw, -, hrest⟩ := wf_iff.1 h
  exact wf_iff.2 ⟨hok, hl, hw, hv, hrest⟩

theorem storeSlot_wf {i : Nat} (v : Elem) (hi : i < s.params.slots) : (s.storeSlot i v).wf = true := by
  obtain ⟨hok, hl, hw, hr, hm, hm', hrest⟩ := wf_iff.1 h
  exact wf_iff.2 ⟨hok, hl, hw, hr, Memory.write_wf i _ hm, Memory.write_inRange hi (truncElem_lt _ v) hm', hrest⟩

theorem tickStep_wf : s.tickStep.wf = true := h

theorem turn_wf (p : Nat) (b : Bool) : (s.turn p b).wf = true := h

theorem hwReset_wf : s.hwReset.wf = true := by
  obtain ⟨hok, -, -, -, -, -, -, hin, -⟩ := wf_iff.1 h
  have hreset : Port.reset.wf s.params = true :=
    Port.wf_iff.2 ⟨.inl rfl, Nat.two_pow_pos _, Nat.two_pow_pos _, Nat.two_pow_pos _, Nat.succ_pos _, Nat.succ_pos _⟩
  refine wf_iff.2 ⟨hok, List.length_replicate, Nat.succ_pos _, Nat.succ_pos _, rfl, rfl, fun q hq => ?_, hin, by simp⟩
  rw [List.eq_of_mem_replicate hq]
  exact hreset

end State

/-- A result always has `DATA_W` bits, the free one too (20_memory.md R62, log 10). -/
theorem zextData_lt (c : Params) (v : Nat) : zextData c v < 2 ^ c.dataW := by
  unfold zextData
  split
  · assumption
  · exact Nat.mod_lt _ (Nat.two_pow_pos _)

/-! ## The operations -/

/-- What a well-formed state says of the port whose turn it is when the instruction `i` is in flight on it. -/
theorem State.me_in_flight {s : State} {o : Opc} (h : s.wf = true) (ho : s.me.phase.opc = some o) :
    s.active < s.params.nports ∧ Opc.ofByte s.me.op = some o ∧ s.me.wdata < 2 ^ s.params.elemW ∧
      s.me.tV < 2 ^ s.params.elemW ∧ s.me.rspData < 2 ^ s.params.dataW ∧ s.me.tW < s.params.slots ∧
      s.me.tR < s.params.slots := by
  have hbusy : s.me.phase ≠ .idle := by
    intro hi
    rw [hi] at ho
    cases ho
  obtain ⟨-, hlen, -⟩ := State.wf_iff.1 h
  have hactive : s.active < s.params.nports := hlen ▸ State.lt_length_of_busy hbusy
  obtain ⟨hop, hregs⟩ := Port.wf_iff.1 (State.port_wf h hactive)
  exact ⟨hactive, (hop.resolve_left hbusy).trans ho, hregs⟩

section SharedMicroSteps

variable {s t : State} {o : Opc} (h : s.wf = true) (ho : s.me.phase.opc = some o)

include h ho

theorem goto_wf_of_opc {l : Phase} (hl : l.opc = some o) : (s.goto l).wf = true := by
  obtain ⟨hactive, hop, -⟩ := State.me_in_flight h ho
  exact State.goto_wf h hactive (hop.trans hl.symm)

/-- An update of the locals and a jump inside the operation. -/
theorem updMe_wf_of_opc {f : Port → Port} (hf : (f s.me).op = s.me.op ∧ (f s.me).wdata = s.me.wdata ∧
    (f s.me).rspData = s.me.rspData) (hphase : (f s.me).phase.opc = some o) (hv : (f s.me).tV < 2 ^ s.params.elemW)
    (hw : (f s.me).tW < s.params.slots) (hr : (f s.me).tR < s.params.slots) : (s.updMe f).wf = true := by
  obtain ⟨-, hop, hwdata, -, hdata, -⟩ := State.me_in_flight h ho
  obtain ⟨hop', hwdata', hdata'⟩ := hf
  refine State.updMe_wf h (Port.wf_iff.2 ⟨.inr ?_, hwdata' ▸ hwdata, hv, hdata' ▸ hdata, hw, hr⟩)
  rw [hop', hop, hphase]

theorem startDeadline_wf {d : Word} {l : Phase} (hl : l.opc = some o) (hx : startDeadline d l s = .next t) :
    t.wf = true := by
  obtain ⟨-, -, -, hv, -, hw, hr⟩ := State.me_in_flight h ho
  cases hx
  exact updMe_wf_of_opc h ho ⟨rfl, rfl, rfl⟩ hl hv hw hr

/-- An update of the locals that stays at the label, and then a jump or the end. -/
theorem updMe_goto_wf {f : Port → Port} {l : Phase} (hs : (s.updMe f).wf = true) (hf : (f s.me).phase = s.me.phase)
    (hl : l.opc = some o) : ((s.updMe f).goto l).wf = true := by
  obtain ⟨hactive, -⟩ := State.me_in_flight h ho
  obtain ⟨-, hlen, -⟩ := State.wf_iff.1 h
  refine goto_wf_of_opc hs ?_ hl
  rw [State.me_updMe f (hlen ▸ hactive), hf, ho]

theorem updMe_complete_wf {f : Port → Port} {ill ok : Bool} {d : Nat} (hs : (s.updMe f).wf = true)
    (hd : d < 2 ^ s.params.dataW) : ((s.updMe f).complete ill ok d).wf = true := by
  obtain ⟨hactive, -⟩ := State.me_in_flight h ho
  exact State.complete_wf hs ill ok hactive hd

theorem checkDeadline_wf {l : Phase} (hl : l.opc = some o) (hx : checkDeadline l s = .next t) : t.wf = true := by
  obtain ⟨-, -, -, hv, -, hw, hr⟩ := State.me_in_flight h ho
  have hs := updMe_wf_of_opc (f := fun q => { q with tNow := s.tick }) h ho ⟨rfl, rfl, rfl⟩ ho hv hw hr
  rcases checkDeadline_next.1 hx with ⟨-, rfl⟩ | ⟨-, rfl⟩
  · exact updMe_complete_wf h ho hs (Nat.two_pow_pos _)
  · exact updMe_goto_wf h ho hs rfl hl

theorem waitLook_wf {f : Word} (hl : Phase.waitW2.opc = some o) (hx : waitLook f s = .next t) : t.wf = true := by
  obtain ⟨-, -, -, hv, -, hw, hr⟩ := State.me_in_flight h ho
  have hs := updMe_wf_of_opc (f := fun q => { q with tF := s.raisedFlags }) h ho ⟨rfl, rfl, rfl⟩ ho hv hw hr
  rcases waitLook_next.1 hx with ⟨-, rfl⟩ | ⟨-, rfl⟩
  · exact updMe_complete_wf h ho hs (zextData_lt _ _)
  · exact updMe_goto_wf h ho hs rfl hl

theorem popLoadRead_wf {l : Phase} (hl : l.opc = some o) (hx : popLoadRead l s = .next t) : t.wf = true := by
  obtain ⟨-, -, -, hv, -, hw, -⟩ := State.me_in_flight h ho
  obtain ⟨hr, hx⟩ := State.loadReadIndex_next.1 hx
  cases hx
  exact updMe_wf_of_opc h ho ⟨rfl, rfl, rfl⟩ hl hv hw hr

/-- C2 keeps a state well formed when what it does on an empty ring does. -/
theorem popLoadWrite_wf {l : Phase} {g : State → State} (hl : l.opc = some o)
    (hg : ∀ u : State, u.wf = true → u.me.phase.opc = some o → (g u).wf = true)
    (hx : popLoadWrite l g s = .next t) : t.wf = true := by
  obtain ⟨hactive, -, -, hv, -, -, hr⟩ := State.me_in_flight h ho
  obtain ⟨-, hlen, -⟩ := State.wf_iff.1 h
  obtain ⟨hw, hcases⟩ := popLoadWrite_next.1 hx
  have hs := updMe_wf_of_opc (f := fun q => { q with tW := s.writeIndex }) h ho ⟨rfl, rfl, rfl⟩ ho hv hw hr
  rcases hcases with ⟨-, rfl⟩ | ⟨-, rfl⟩
  · refine hg _ hs ?_
    rw [State.me_updMe _ (hlen ▸ hactive), ho]
  · exact updMe_goto_wf h ho hs rfl hl

theorem popRead_wf {l : Phase} (hl : l.opc = some o) (hx : popRead l s = .next t) : t.wf = true := by
  obtain ⟨-, -, -, -, -, hw, hr⟩ := State.me_in_flight h ho
  obtain ⟨-, -, -, -, -, hrange, -⟩ := State.wf_iff.1 h
  obtain ⟨-, hx⟩ := State.memRead_next.1 hx
  cases hx
  exact updMe_wf_of_opc h ho ⟨rfl, rfl, rfl⟩ hl (State.slot_fits hrange _) hw hr

theorem popFinish_wf (hx : popFinish s = .next t) : t.wf = true := by
  obtain ⟨hactive, -⟩ := State.me_in_flight h ho
  cases hx
  exact State.complete_wf (State.storeReadIndex_wf h (nextIdx_lt _ _)) _ _ hactive (zextData_lt _ _)

end SharedMicroSteps

section Operations

variable {s t : State} (h : s.wf = true)

include h

theorem execNtfWait_wf {f d : Word} (hx : exec (.ntfWait f d) s = .next t) : t.wf = true := by
  have ho := opc_phase_of_exec hx
  have hl := mem_opcLabels ho
  simp only [Instr.opc, opcLabels, List.mem_cons, List.not_mem_nil, or_false] at hl
  rcases hl with hp | hp | hp | hp
  · exact startDeadline_wf h ho rfl (exec_ntfWait_of_waitW0 f d hp ▸ hx)
  · exact waitLook_wf h ho rfl (exec_ntfWait_of_waitW1 f d hp ▸ hx)
  · exact checkDeadline_wf h ho rfl (exec_ntfWait_of_waitW2 f d hp ▸ hx)
  · cases (exec_ntfWait_of_waitW3 f d hp).symm.trans hx
    exact goto_wf_of_opc h ho rfl

theorem execRbPush_wf {v : Elem} (hx : exec (.rbPush v) s = .next t) : t.wf = true := by
  have ho := opc_phase_of_exec hx
  have hl := mem_opcLabels ho
  obtain ⟨-, -, hw, hr, -⟩ := State.wf_iff.1 h
  obtain ⟨hactive, hop, -, hv, -, htw, htr⟩ := State.me_in_flight h ho
  simp only [Instr.opc, opcLabels, List.mem_cons, List.not_mem_nil, or_false] at hl
  rcases hl with hp | hp | hp | hp
  · cases (exec_rbPush_of_pushP1 v hp hw).symm.trans hx
    exact updMe_wf_of_opc h ho ⟨rfl, rfl, rfl⟩ rfl hv hw htr
  · have hs := updMe_wf_of_opc (f := fun q => { q with tR := s.readIndex }) h ho ⟨rfl, rfl, rfl⟩ ho hv htw hr
    cases hfull : ringFull s.params s.me.tW s.readIndex
    · cases (exec_rbPush_of_room v hp hr hfull).symm.trans hx
      exact updMe_goto_wf h ho hs rfl rfl
    · cases (exec_rbPush_of_full v hp hr hfull).symm.trans hx
      exact updMe_complete_wf h ho hs (Nat.two_pow_pos _)
  · cases (exec_rbPush_of_pushP3 v hp htw).symm.trans hx
    exact State.goto_wf (State.storeSlot_wf h v htw) hactive hop
  · cases (exec_rbPush_of_pushP4 v hp).symm.trans hx
    exact State.complete_wf (State.storeWriteIndex_wf h (nextIdx_lt _ _)) _ _ hactive (Nat.two_pow_pos _)

theorem execRbPop_wf (hx : exec .rbPop s = .next t) : t.wf = true := by
  have ho := opc_phase_of_exec hx
  have hl := mem_opcLabels ho
  simp only [Instr.opc, opcLabels, List.mem_cons, List.not_mem_nil, or_false] at hl
  rcases hl with hp | hp | hp | hp
  · exact popLoadRead_wf h ho rfl (exec_rbPop_of_popC1 hp ▸ hx)
  · refine popLoadWrite_wf h ho rfl (fun u hu huo => ?_) (exec_rbPop_of_popC2 hp ▸ hx)
    obtain ⟨hactive, -⟩ := State.me_in_flight hu huo
    exact State.complete_wf hu _ _ hactive (Nat.two_pow_pos _)
  · exact popRead_wf h ho rfl (exec_rbPop_of_popC3 hp ▸ hx)
  · exact popFinish_wf h ho (exec_rbPop_of_popC4 hp ▸ hx)

theorem execRbPopt_wf {d : Word} (hx : exec (.rbPopt d) s = .next t) : t.wf = true := by
  have ho := opc_phase_of_exec hx
  have hl := mem_opcLabels ho
  simp only [Instr.opc, opcLabels, List.mem_cons, List.not_mem_nil, or_false] at hl
  rcases hl with hp | hp | hp | hp | hp | hp | hp
  · exact startDeadline_wf h ho rfl (exec_rbPopt_of_poptT0 d hp ▸ hx)
  · exact popLoadRead_wf h ho rfl (exec_rbPopt_of_poptC1 d hp ▸ hx)
  · exact popLoadWrite_wf h ho rfl (fun u hu huo => goto_wf_of_opc hu huo rfl) (exec_rbPopt_of_poptC2 d hp ▸ hx)
  · exact popRead_wf h ho rfl (exec_rbPopt_of_poptC3 d hp ▸ hx)
  · exact popFinish_wf h ho (exec_rbPopt_of_poptC4 d hp ▸ hx)
  · exact checkDeadline_wf h ho rfl (exec_rbPopt_of_poptT1 d hp ▸ hx)
  · cases (exec_rbPopt_of_poptT2 d hp).symm.trans hx
    exact goto_wf_of_opc h ho rfl

theorem execRbClear_wf (hx : exec .rbClear s = .next t) : t.wf = true := by
  have ho := opc_phase_of_exec hx
  have hl := mem_opcLabels ho
  have hzero : 0 < s.params.slots := Nat.succ_pos _
  obtain ⟨hactive, hop, -⟩ := State.me_in_flight h ho
  simp only [Instr.opc, opcLabels, List.mem_cons, List.not_mem_nil, or_false] at hl
  rcases hl with hp | hp | hp
  · cases hb : s.swap
    · cases (exec_rbClear_write_first hp hb).symm.trans hx
      exact State.goto_wf (State.storeWriteIndex_wf h hzero) hactive hop
    · cases (exec_rbClear_read_first hp hb).symm.trans hx
      exact State.goto_wf (State.storeReadIndex_wf h hzero) hactive hop
  · cases (exec_rbClear_of_clearK1 hp).symm.trans hx
    exact State.complete_wf (State.storeWriteIndex_wf h hzero) _ _ hactive (Nat.two_pow_pos _)
  · cases (exec_rbClear_of_clearK2 hp).symm.trans hx
    exact State.complete_wf (State.storeReadIndex_wf h hzero) _ _ hactive (Nat.two_pow_pos _)

theorem execRbSize_wf (hx : exec .rbSize s = .next t) : t.wf = true := by
  have ho := opc_phase_of_exec hx
  have hl := mem_opcLabels ho
  obtain ⟨-, -, hw, hr, -⟩ := State.wf_iff.1 h
  obtain ⟨-, -, -, hv, -, htw, htr⟩ := State.me_in_flight h ho
  have hsw := updMe_wf_of_opc (f := fun q => { q with tW := s.writeIndex }) h ho ⟨rfl, rfl, rfl⟩ ho hv hw htr
  have hsr := updMe_wf_of_opc (f := fun q => { q with tR := s.readIndex }) h ho ⟨rfl, rfl, rfl⟩ ho hv htw hr
  simp only [Instr.opc, opcLabels, List.mem_cons, List.not_mem_nil, or_false] at hl
  rcases hl with hp | hp | hp
  · cases hb : s.swap
    · cases (exec_rbSize_write_first hp hb hw).symm.trans hx
      exact updMe_wf_of_opc h ho ⟨rfl, rfl, rfl⟩ rfl hv hw htr
    · cases (exec_rbSize_read_first hp hb hr).symm.trans hx
      exact updMe_wf_of_opc h ho ⟨rfl, rfl, rfl⟩ rfl hv htw hr
  · cases (exec_rbSize_of_sizeQ1 hp hw).symm.trans hx
    exact updMe_complete_wf h ho hsw (zextData_lt _ _)
  · cases (exec_rbSize_of_sizeQ2 hp hr).symm.trans hx
    exact updMe_complete_wf h ho hsr (zextData_lt _ _)

/-- Every micro-step keeps a state well formed. -/
theorem exec_wf {i : Instr} (hx : exec i s = .next t) : t.wf = true := by
  have ho := opc_phase_of_exec hx
  have hl := mem_opcLabels ho
  obtain ⟨hactive, -, -, hv, -, htw, htr⟩ := State.me_in_flight h ho
  cases i <;> simp only [Instr.opc, opcLabels, List.mem_cons, List.not_mem_nil, or_false] at hl
  case dlNew d =>
    cases (exec_dlNew_of_newN1 d hl).symm.trans hx
    refine updMe_complete_wf h ho ?_ (Nat.two_pow_pos _)
    exact updMe_wf_of_opc h ho ⟨rfl, rfl, rfl⟩ ho hv htw htr
  case dlExpired =>
    cases (exec_dlExpired_of_expiredE1 hl).symm.trans hx
    refine updMe_complete_wf h ho ?_ (zextData_bit s.params _ ▸ zextData_lt _ _)
    exact updMe_wf_of_opc h ho ⟨rfl, rfl, rfl⟩ ho hv htw htr
  case ntfReset =>
    cases (exec_ntfReset_of_resetZ1 hl).symm.trans hx
    exact State.complete_wf (State.storeFlags_wf h 0) _ _ hactive (Nat.two_pow_pos _)
  case ntfSet f =>
    cases (exec_ntfSet_of_setS1 f hl).symm.trans hx
    exact State.complete_wf (State.fetchOrFlags_wf h f) _ _ hactive (Nat.two_pow_pos _)
  case ntfWait f d => exact execNtfWait_wf h hx
  case rbPush v => exact execRbPush_wf h hx
  case rbPop => exact execRbPop_wf h hx
  case rbPopt d => exact execRbPopt_wf h hx
  case rbClear => exact execRbClear_wf h hx
  case rbSize => exact execRbSize_wf h hx
  case rbCap =>
    cases (exec_rbCap_of_capA1 hl).symm.trans hx
    exact State.complete_wf h _ _ hactive (zextData_lt _ _)

end Operations

/-! ## The step -/

/-- A port that latches a command stands at the first label of the operation its opcode names, or at X1
(30_encoding.md R95, R99). -/
theorem firstPhase_opc (op : Byte) : (firstPhase op).opc = Opc.ofByte op := by
  unfold firstPhase
  split
  · next o ho =>
    rw [ho]
    cases o <;> rfl
  · next ho => exact ho.symm

/-- The issue keeps a port well formed. -/
theorem Port.latch_wf {c : Params} {q : Port} (h : q.wf c = true) (m : Cmd) : (q.latch c m).wf c = true := by
  obtain ⟨-, -, hv, hdata, htw, htr⟩ := Port.wf_iff.1 h
  exact Port.wf_iff.2 ⟨.inr (firstPhase_opc m.op).symm, truncElem_lt _ _, hv, hdata, htw, htr⟩

/-- Every step keeps a state well formed, whatever the input. -/
theorem step_wf {s t : State} (h : s.wf = true) (hx : step s = .next t) : t.wf = true := by
  have hb := State.begin_wf h
  rcases step_cases hx with ⟨-, rfl⟩ | ⟨-, rfl⟩ | ⟨p, m, -, hs⟩ | ⟨p, b, -, hs⟩
  · exact State.tickStep_wf hb
  · exact State.hwReset_wf hb
  · obtain ⟨hp, ⟨-, rfl⟩ | ⟨-, rfl⟩⟩ := issueStep_cases hs
    · exact State.setPort_wf hb (Port.latch_wf (State.port_wf hb hp) m)
    · exact hb
  · obtain ⟨hp, ⟨-, rfl⟩ | ⟨-, rfl⟩ | ⟨i, -, -, -, hi⟩⟩ := microStep_cases hs
    · exact hb
    · exact State.complete_wf (State.turn_wf hb p b) _ _ hp (Nat.two_pow_pos _)
    · exact exec_wf (State.turn_wf hb p b) hi

end Sys2Proof.Machine
end

section
/-! What a micro-step can do to the ring's registers and to the phase of its port, over all instructions
(10_state.md R20, R34). -/

namespace Sys2Proof.Machine

/-- The labels whose micro-step stores to a register of the ring. -/
def ringStores : List Phase := [.pushP3, .pushP4, .popC4, .poptC4, .clearK, .clearK1, .clearK2]

/-! ## The ring's registers -/

section Same

variable {s t : State}

theorem startDeadline_ringSame {d : Word} {l : Phase} (hx : startDeadline d l s = .next t) : RingSame s t := by
  cases hx
  exact .of_registers rfl rfl rfl rfl rfl

theorem checkDeadline_ringSame {l : Phase} (hx : checkDeadline l s = .next t) : RingSame s t := by
  rcases checkDeadline_next.1 hx with ⟨-, rfl⟩ | ⟨-, rfl⟩ <;> exact .of_registers rfl rfl rfl rfl rfl

theorem waitLook_ringSame {f : Word} (hx : waitLook f s = .next t) : RingSame s t := by
  rcases waitLook_next.1 hx with ⟨-, rfl⟩ | ⟨-, rfl⟩ <;> exact .of_registers rfl rfl rfl rfl rfl

theorem popLoadRead_ringSame {l : Phase} (hx : popLoadRead l s = .next t) : RingSame s t := by
  obtain ⟨-, hx⟩ := State.loadReadIndex_next.1 hx
  cases hx
  exact .of_registers rfl rfl rfl rfl rfl

theorem popLoadWrite_ringSame {l : Phase} {g : State → State} (hg : ∀ u, RingSame u (g u))
    (hx : popLoadWrite l g s = .next t) : RingSame s t := by
  have hsame : RingSame s (s.updMe fun q => { q with tW := s.writeIndex }) := .of_registers rfl rfl rfl rfl rfl
  obtain ⟨-, ⟨-, rfl⟩ | ⟨-, rfl⟩⟩ := popLoadWrite_next.1 hx
  · exact hsame.trans (hg _)
  · exact .of_registers rfl rfl rfl rfl rfl

theorem popRead_ringSame {l : Phase} (hx : popRead l s = .next t) : RingSame s t := by
  obtain ⟨-, hx⟩ := State.memRead_next.1 hx
  cases hx
  exact .of_registers rfl rfl rfl rfl rfl

/-- Every micro-step of every instruction but those of `ringStores` leaves the ring's registers as they are. -/
theorem exec_ringSame {i : Instr} (hwf : s.wf = true) (hx : exec i s = .next t) (hphase : s.me.phase ∉ ringStores) :
    RingSame s t := by
  have hl := mem_opcLabels (opc_phase_of_exec hx)
  obtain ⟨-, -, hw, hr, -⟩ := State.wf_iff.1 hwf
  cases i <;> simp only [Instr.opc, opcLabels, List.mem_cons, List.not_mem_nil, or_false] at hl
  case dlNew d =>
    cases (exec_dlNew_of_newN1 d hl).symm.trans hx
    exact .of_registers rfl rfl rfl rfl rfl
  case dlExpired =>
    cases (exec_dlExpired_of_expiredE1 hl).symm.trans hx
    exact .of_registers rfl rfl rfl rfl rfl
  case ntfReset =>
    cases (exec_ntfReset_of_resetZ1 hl).symm.trans hx
    exact .of_registers rfl rfl rfl rfl rfl
  case ntfSet f =>
    cases (exec_ntfSet_of_setS1 f hl).symm.trans hx
    exact .of_registers rfl rfl rfl rfl rfl
  case ntfWait f d =>
    rcases hl with hp | hp | hp | hp
    · exact startDeadline_ringSame (exec_ntfWait_of_waitW0 f d hp ▸ hx)
    · exact waitLook_ringSame (exec_ntfWait_of_waitW1 f d hp ▸ hx)
    · exact checkDeadline_ringSame (exec_ntfWait_of_waitW2 f d hp ▸ hx)
    · cases (exec_ntfWait_of_waitW3 f d hp).symm.trans hx
      exact .of_registers rfl rfl rfl rfl rfl
  case rbPush v =>
    rcases hl with hp | hp | hp | hp
    · obtain ⟨u, hu, -, -, -, -, -, -, he, hs, -⟩ := exec_rbPush_pushP1_effect v hp hw
      cases hu.symm.trans hx
      exact .of_shared he hs
    · obtain ⟨u, hu, -, -, -, -, -, -, -, he, hs, -⟩ := exec_rbPush_pushP2_effect v hp hr
      cases hu.symm.trans hx
      exact .of_shared he hs
    all_goals exact absurd (by rw [hp]; decide) hphase
  case rbPop =>
    rcases hl with hp | hp | hp | hp
    · exact popLoadRead_ringSame (exec_rbPop_of_popC1 hp ▸ hx)
    · refine popLoadWrite_ringSame (fun u => ?_) ((exec_rbPop_of_popC2 hp).symm.trans hx)
      exact .of_registers rfl rfl rfl rfl rfl
    · exact popRead_ringSame (exec_rbPop_of_popC3 hp ▸ hx)
    · exact absurd (by rw [hp]; decide) hphase
  case rbPopt d =>
    rcases hl with hp | hp | hp | hp | hp | hp | hp
    · exact startDeadline_ringSame (exec_rbPopt_of_poptT0 d hp ▸ hx)
    · exact popLoadRead_ringSame (exec_rbPopt_of_poptC1 d hp ▸ hx)
    · refine popLoadWrite_ringSame (fun u => ?_) ((exec_rbPopt_of_poptC2 d hp).symm.trans hx)
      exact .of_registers rfl rfl rfl rfl rfl
    · exact popRead_ringSame (exec_rbPopt_of_poptC3 d hp ▸ hx)
    · exact absurd (by rw [hp]; decide) hphase
    · exact checkDeadline_ringSame (exec_rbPopt_of_poptT1 d hp ▸ hx)
    · cases (exec_rbPopt_of_poptT2 d hp).symm.trans hx
      exact .of_registers rfl rfl rfl rfl rfl
  case rbClear => rcases hl with hp | hp | hp <;> exact absurd (by rw [hp]; decide) hphase
  case rbSize =>
    rcases hl with hp | hp | hp
    · obtain ⟨u, hu, -, -, -, -, -, he, hs, -⟩ := exec_rbSize_first_effect hw hr hp
      cases hu.symm.trans hx
      exact .of_shared he hs
    · obtain ⟨u, hu, -, -, -, -, -, -, he, hs, -⟩ := exec_rbSize_sizeQ1_effect hp hw
      cases hu.symm.trans hx
      exact .of_shared he hs
    · obtain ⟨u, hu, -, -, -, -, -, -, he, hs, -⟩ := exec_rbSize_sizeQ2_effect hp hr
      cases hu.symm.trans hx
      exact .of_shared he hs
  case rbCap =>
    cases (exec_rbCap_of_capA1 hl).symm.trans hx
    exact .of_registers rfl rfl rfl rfl rfl

/-! ## The phase -/

/-- A micro-step ends the operation or goes on inside it. -/
theorem exec_opc_kept {i : Instr} (hwf : s.wf = true) (hx : exec i s = .next t) :
    t.me.phase = .idle ∨ t.me.phase.opc = s.me.phase.opc := by
  have ho := opc_phase_of_exec hx
  have he := exec_elsewhere hx
  obtain ⟨hactive, hop, -⟩ := State.me_in_flight hwf ho
  obtain ⟨hphase, -⟩ := Port.wf_iff.1 (State.port_wf (p := t.active) (exec_wf hwf hx) (by
    rwa [he.active_eq, he.params_eq]))
  refine hphase.imp_right fun h => ?_
  obtain ⟨-, ⟨hop', -⟩, -⟩ := he
  rw [ho, ← hop, ← hop']
  exact h.symm

end Same

/-! ## Turns of a port -/

/-- A busy port's turn is a micro-step of its operation, from the state that has taken the input up. -/
theorem step_turn {s t : State} {p : Nat} {b : Bool} {o : Opc} (h : step s = .next t)
    (hi : s.nextInput = .micro p b) (ho : (s.port p).phase.opc = some o) :
    exec (o.instr (s.port p).cmd) (s.begin.turn p b) = .next t := by
  rw [step_of_micro hi] at h
  obtain ⟨-, ⟨hp, -⟩ | ⟨hp, -⟩ | ⟨i, -, -, hd, hx⟩⟩ := microStep_cases h
  · rw [State.begin_port] at hp
    simp [hp, Phase.opc] at ho
  · rw [State.begin_port] at hp
    simp [hp, Phase.opc] at ho
  · have hme : (s.begin.turn p b).me = s.port p := by simp
    have hinstr : i = o.instr (s.port p).cmd := hme ▸ instr_of_exec (by simpa using hd) hx (by simpa using ho)
    exact hinstr ▸ hx

end Sys2Proof.Machine
end

section
/-! The invariant of a ring whose disciplines are kept, taken apart: which operations are in flight, which slots are
written, and what the label a port stands at still says of the ring (42_ringbuffer.md R185, 70_reset_and_hazards.md
R270, R274). -/

namespace Sys2Proof.Machine

/-! ## The parts of the invariant -/

/-- The operations in flight keep to their roles, and no clear runs beside a push or a pop. -/
structure RolesInFlight (r : Roles) (s : State) : Prop where
  push : ∀ p, (s.port p).phase.pushing = true → p = r.producer
  pop : ∀ p, (s.port p).phase.popping = true → p = r.consumer
  clear : ∀ p q, (s.port p).phase.clearing = true →
    (s.port q).phase.pushing = false ∧ (s.port q).phase.popping = false

/-- A port between the two stores of RB.CLEAR. -/
def Phase.halfCleared (l : Phase) : Bool := l == .clearK1 || l == .clearK2

/-- The live slots are written, unless a clear has stored one index only. -/
def LiveWritten (s : State) : Prop :=
  (∀ p, (s.port p).phase.halfCleared = false) →
    ∀ k, k < s.count → Memory.read s.storage ((s.readIndex + k) % s.params.slots) ≠ none

/-- What the label a port stands at, with what the port has loaded, says of the ring. -/
def Knows (s : State) (q : Port) : Prop :=
  match q.phase with
  | .pushP2 => q.tW = s.writeIndex
  | .pushP3 => q.tW = s.writeIndex ∧ ringFull s.params s.writeIndex s.readIndex = false
  | .pushP4 => q.tW = s.writeIndex ∧ ringFull s.params s.writeIndex s.readIndex = false ∧
      Memory.read s.storage s.writeIndex = some q.wdata
  | .popC2 | .poptC2 => q.tR = s.readIndex
  | .popC3 | .poptC3 => q.tR = s.readIndex ∧ s.writeIndex ≠ s.readIndex
  | .popC4 | .poptC4 => q.tR = s.readIndex ∧ s.writeIndex ≠ s.readIndex ∧ q.tV = s.slot s.readIndex
  | .clearK1 => s.readIndex = 0
  | .clearK2 => s.writeIndex = 0
  | _ => True

/-- What the ring's registers have to do with the labels of the ports. -/
structure LabelsTrue (s : State) : Prop where
  live : LiveWritten s
  knows : ∀ p, Knows s (s.port p)

theorem any_ports_iff {f : Port → Bool} (hf : f Port.reset = false) (s : State) :
    s.ports.any f = true ↔ ∃ p, f (s.port p) = true := by
  rw [List.any_eq_true]
  constructor
  · rintro ⟨q, hq, hfq⟩
    obtain ⟨p, hp, rfl⟩ := List.mem_iff_getElem.1 hq
    exact ⟨p, by simpa [State.port, List.getD, hp] using hfq⟩
  · rintro ⟨p, hp⟩
    by_cases hlt : p < s.ports.length
    · exact ⟨s.ports[p], List.getElem_mem hlt, by simpa [State.port, List.getD, hlt] using hp⟩
    · simp [State.port, List.getD, List.getElem?_eq_none (Nat.le_of_not_lt hlt), hf] at hp

theorem clearBusy_iff (s : State) : s.clearBusy = true ↔ ∃ p, (s.port p).phase.clearing = true :=
  any_ports_iff (f := fun q => q.phase.clearing) rfl s

theorem ringBusy_iff (s : State) :
    s.ringBusy = true ↔ ∃ p, (s.port p).phase.pushing = true ∨ (s.port p).phase.popping = true :=
  (any_ports_iff (f := fun q => q.phase.pushing || q.phase.popping) rfl s).trans (by simp)

theorem ringBusy_eq_false_iff (s : State) :
    s.ringBusy = false ↔ ∀ p, (s.port p).phase.pushing = false ∧ (s.port p).phase.popping = false := by
  simpa using not_congr (ringBusy_iff s)

theorem RingKept.rolesInFlight {r : Roles} {s : State} (h : RingKept r s) : RolesInFlight r s :=
  ⟨h.push_role, h.pop_role, fun p q hp =>
    (ringBusy_eq_false_iff s).1 (h.clear_alone ((clearBusy_iff s).2 ⟨p, hp⟩)) q⟩

theorem RingKept.labelsTrue {r : Roles} {s : State} (h : RingKept r s) : LabelsTrue s := by
  refine ⟨fun hhalf => h.live_written fun p => by simpa [Phase.halfCleared] using hhalf p, fun p => ?_⟩
  have hne : ringEmpty s.writeIndex s.readIndex = false → s.writeIndex ≠ s.readIndex := by simp [ringEmpty]
  unfold Knows
  split
  · next hp => exact h.write_loaded p (by simp [hp])
  · next hp => exact ⟨h.write_loaded p (by simp [hp]), h.room_found p (by simp [hp])⟩
  · next hp => exact ⟨h.write_loaded p (by simp [hp]), h.room_found p (by simp [hp]), h.element_put p hp⟩
  · next hp => exact h.read_loaded p (by simp [hp])
  · next hp => exact h.read_loaded p (by simp [hp])
  · next hp => exact ⟨h.read_loaded p (by simp [hp]), hne (h.element_there p (by simp [hp]))⟩
  · next hp => exact ⟨h.read_loaded p (by simp [hp]), hne (h.element_there p (by simp [hp]))⟩
  · next hp =>
    exact ⟨h.read_loaded p (by simp [hp]), hne (h.element_there p (by simp [hp])), h.element_read p (by simp [hp])⟩
  · next hp =>
    exact ⟨h.read_loaded p (by simp [hp]), hne (h.element_there p (by simp [hp])), h.element_read p (by simp [hp])⟩
  · next hp => exact h.read_cleared p hp
  · next hp => exact h.write_cleared p hp
  · trivial

/-- The parts make the invariant. -/
theorem RingKept.of_parts {r : Roles} {s : State} (hwf : s.wf = true) (hr : r.producer ≠ r.consumer)
    (hroles : RolesInFlight r s) (h : LabelsTrue s) : RingKept r s := by
  obtain ⟨hlive, hknows⟩ := h
  refine ⟨hwf, hr, hroles.push, hroles.pop, fun hc => ?_, fun p hp => ?_, fun p hp => ?_,
    fun hhalf => hlive fun p => ?_, fun p hp => ?_, fun p hp => ?_, fun p hp => ?_, fun p hp => ?_, fun p hp => ?_,
    fun p hp => ?_⟩
  · obtain ⟨p, hp⟩ := (clearBusy_iff s).1 hc
    exact (ringBusy_eq_false_iff s).2 fun q => hroles.clear p q hp
  · simpa [Knows, hp] using hknows p
  · simpa [Knows, hp] using hknows p
  · simp [Phase.halfCleared, hhalf p]
  all_goals have hk := hknows p
  · rcases hp with hp | hp | hp <;> simp only [Knows, hp] at hk <;> simp [hk]
  · rcases hp with hp | hp <;> simp only [Knows, hp] at hk <;> simp [hk]
  · simp only [Knows, hp] at hk
    simp [hk]
  · rcases hp with hp | hp | hp | hp | hp | hp <;> simp only [Knows, hp] at hk <;> simp [hk]
  · rcases hp with hp | hp | hp | hp <;> simp only [Knows, hp] at hk <;> simp [hk, ringEmpty]
  · rcases hp with hp | hp <;> simp only [Knows, hp] at hk <;> simp [hk]

/-! ## The operations in flight -/

/-- Steps that let every operation in flight end or go on, and issue none, keep the roles. -/
theorem RolesInFlight.of_opc {r : Roles} {s t : State} (h : RolesInFlight r s)
    (hopc : ∀ p, (t.port p).phase = .idle ∨ (t.port p).phase.opc = (s.port p).phase.opc) : RolesInFlight r t := by
  have hpush : ∀ p, (t.port p).phase.pushing = true → (s.port p).phase.pushing = true := by
    intro p hp
    rcases hopc p with hi | ho
    · rw [hi] at hp
      cases hp
    · simpa [Phase.pushing, ho] using hp
  have hpop : ∀ p, (t.port p).phase.popping = true → (s.port p).phase.popping = true := by
    intro p hp
    rcases hopc p with hi | ho
    · rw [hi] at hp
      cases hp
    · simpa [Phase.popping, ho] using hp
  have hclear : ∀ p, (t.port p).phase.clearing = true → (s.port p).phase.clearing = true := by
    intro p hp
    rcases hopc p with hi | ho
    · rw [hi] at hp
      cases hp
    · simpa [Phase.clearing, ho] using hp
  refine ⟨fun p hp => h.push p (hpush p hp), fun p hp => h.pop p (hpop p hp), fun p q hp => ?_⟩
  obtain ⟨hnpush, hnpop⟩ := h.clear p q (hclear p hp)
  exact ⟨Bool.eq_false_iff.2 fun hq => by simp [hpush q hq] at hnpush,
    Bool.eq_false_iff.2 fun hq => by simp [hpop q hq] at hnpop⟩

/-! ## What each store to the ring leaves true for the other ports -/

section Stores

variable {s t : State}

/-- A port at a label of no ring operation but RB.SIZE and RB.CAP claims nothing. -/
theorem knows_of_opc {q : Port}
    (h : q.phase.pushing = false ∧ q.phase.popping = false ∧ q.phase.clearing = false) : Knows s q := by
  unfold Knows
  split <;> simp_all [Phase.pushing, Phase.popping, Phase.clearing, Phase.opc]

theorem knows_of_idle {q : Port} (h : q.phase = .idle) : Knows s q :=
  knows_of_opc (by rw [h]; decide)

/-- The first label of a command claims nothing of the ring: nothing is loaded yet. -/
theorem knows_latch (c : Params) (q : Port) (m : Cmd) : Knows s (q.latch c m) := by
  simp only [Knows, Port.latch, firstPhase]
  cases Opc.ofByte m.op with
  | none => trivial
  | some o => cases o <;> trivial

theorem Knows.of_ringSame {q : Port} (h : RingSame s t) (hk : Knows s q) : Knows t q := by
  obtain ⟨hparams, ⟨hw, hr⟩, hstore⟩ := h
  simpa only [Knows, hparams, hw, hr, (hstore _).1, (hstore _).2] using hk

/-- P3 writes the slot of the write index, which no pop reads. -/
theorem Knows.after_put {q : Port} (hi : IndicesSame s t) (hslots : ∀ i, i ≠ s.writeIndex → t.slot i = s.slot i)
    (hq : q.phase.pushing = false) (hk : Knows s q) : Knows t q := by
  obtain ⟨hw, hr⟩ := hi
  unfold Knows at hk ⊢
  split <;> simp_all [Phase.pushing, Phase.opc]
  all_goals exact (hslots _ (Ne.symm hk.2.1)).symm

/-- P4 makes the queue longer, so it stays non-empty. -/
theorem Knows.after_append {q : Port} (hw : t.writeIndex = nextIdx s.params s.writeIndex)
    (hr : t.readIndex = s.readIndex) (hs : StorageSame s t)
    (hroom : ringFull s.params s.writeIndex s.readIndex = false)
    (hq : q.phase.pushing = false ∧ q.phase.clearing = false) (hk : Knows s q) : Knows t q := by
  have hne : t.writeIndex ≠ t.readIndex := by
    rw [hw, hr]
    simpa [ringFull] using hroom
  unfold Knows at hk ⊢
  split <;> simp_all [Phase.pushing, Phase.clearing, Phase.opc, StorageSame]

/-- C4 makes the queue shorter, so it keeps its room. -/
theorem Knows.after_take {q : Port} (hp : t.params = s.params) (hw : t.writeIndex = s.writeIndex)
    (hroom : ringFull s.params s.writeIndex t.readIndex = false) (hs : StorageSame s t)
    (hq : q.phase.popping = false ∧ q.phase.clearing = false) (hk : Knows s q) : Knows t q := by
  unfold Knows at hk ⊢
  split <;> simp_all [Phase.popping, Phase.clearing, Phase.opc, StorageSame]

/-- A store of RB.CLEAR leaves an index 0 that was 0. -/
theorem Knows.after_clear {q : Port} (hw : t.writeIndex = s.writeIndex ∨ t.writeIndex = 0)
    (hr : t.readIndex = s.readIndex ∨ t.readIndex = 0)
    (hq : q.phase.pushing = false ∧ q.phase.popping = false) (hk : Knows s q) : Knows t q := by
  unfold Knows at hk ⊢
  split <;> simp_all [Phase.pushing, Phase.popping, Phase.opc]

end Stores

end Sys2Proof.Machine
end

section
/-! Every micro-step of an operation in flight keeps the labels true, and its effect on the abstract queue is the one of
the table of 42_ringbuffer.md R185. -/

namespace Sys2Proof.Machine

/-! ## The effect of a turn -/

@[simp] theorem State.offered_queue (s : State) (i : Input) : (s.offered i).queue = s.queue := rfl

@[simp] theorem State.begin_queue (s : State) : s.begin.queue = s.queue :=
  (RingSame.begin_turn s 0 false).queue_eq

/-- What is to be shown of a turn of port `p`: the labels stay true, and the effect is the table's. -/
def TurnKept (p : Nat) (b : Bool) (s t : State) : Prop :=
  LabelsTrue t ∧ QueueEffect (s.offered (.micro p b)) t

/-- The labels whose micro-step has a row of its own in the table of R185. -/
def tableRows : List Phase :=
  [.pushP2, .pushP4, .popC2, .poptC2, .popC4, .poptC4, .clearK, .clearK1, .clearK2]

theorem queueEffect_of_same {s t : State} {p : Nat} (b : Bool) (hq : t.queue = s.queue)
    (hphase : (s.port p).phase ∉ tableRows) : QueueEffect (s.offered (.micro p b)) t := by
  cases hp : (s.port p).phase <;> simp_all [QueueEffect, tableRows]

/-- A turn that leaves the ring as it is keeps the labels true, if it does not end a clear and the label the port goes
on to says what holds. -/
theorem LabelsTrue.of_same {s t : State} {p : Nat} (h : LabelsTrue s) (hsame : TurnSame p s t)
    (hhalf : (t.port p).phase.halfCleared = false → (s.port p).phase.halfCleared = false)
    (hown : Knows s (t.port p)) : LabelsTrue t := by
  obtain ⟨hring, hothers⟩ := hsame
  have ⟨hparams, ⟨hw, hr⟩, hstore⟩ := hring
  refine ⟨fun hclear k hk => ?_, fun q => ?_⟩
  · rw [State.count, hparams, hw, hr] at hk
    rw [hparams, hr, (hstore _).1]
    refine h.live (fun q => ?_) k hk
    by_cases hq : q = p
    · exact hq ▸ hhalf (hclear p)
    · exact hothers q hq ▸ hclear q
  · by_cases hq : q = p
    · exact hq ▸ hown.of_ringSame hring
    · rw [hothers q hq]
      exact (h.knows q).of_ringSame hring

/-- A step that ends with equal indices has no live slot to be unwritten. -/
theorem LiveWritten.of_indices_eq {s : State} (h : s.writeIndex = s.readIndex) : LiveWritten s := by
  intro _ k hk
  simp [State.count, h, ringSize_self] at hk

/-! ## RB.PUSH -/

section Push

variable {r : Roles} {s t : State} {p : Nat} {b : Bool} (hwf : s.wf = true) (h : LabelsTrue s)

include hwf h

/-- P2 finds the ring full exactly with `CAPACITY` elements in the queue. -/
theorem pushP2_kept {v : Elem} (hp : (s.port p).phase = .pushP2) (hx : exec (.rbPush v) (s.turn p b) = .next t) :
    TurnKept p b s t := by
  obtain ⟨-, -, hw, hr, -⟩ := State.wf_iff.1 hwf
  have htw : (s.port p).tW = s.writeIndex := by simpa [Knows, hp] using h.knows p
  obtain ⟨u, hu, -, huw, -, hfull, hroom, -, -, he, hs, -⟩ := exec_rbPush_pushP2_effect (s := s.turn p b) v hp hr
  cases hu.symm.trans hx
  have hsame := TurnSame.of_turn he hs
  rw [State.turn_me, State.turn_params, State.turn_readIndex, htw] at hfull hroom
  have hcap := ringFull_iff hw hr
  rw [ringFull, nextIdx, beq_iff_eq, ← State.length_queue] at hcap
  suffices hgo : (t.port p).phase = .idle ∧ s.queue.length = s.params.capacity ∨
      (t.port p).phase = .pushP3 ∧ s.queue.length ≠ s.params.capacity ∧ Knows s (t.port p) by
    rcases hgo with ⟨hphase, hlength⟩ | ⟨hphase, hlength, hknows⟩
    · refine ⟨h.of_same hsame (fun _ => by rw [hp]; rfl) (knows_of_idle hphase), ?_⟩
      simpa [QueueEffect, hp, hphase, hlength] using hsame.1.queue_eq
    · refine ⟨h.of_same hsame (fun _ => by rw [hp]; rfl) hknows, ?_⟩
      simpa [QueueEffect, hp, hphase, hlength] using hsame.1.queue_eq
  rw [← he.me_of_turn]
  by_cases hf : (s.writeIndex + 1) % s.params.slots = s.readIndex
  · obtain ⟨hphase, -⟩ := hfull hf
    exact .inl ⟨hphase, hcap.1 hf⟩
  · obtain ⟨hphase, -⟩ := hroom hf
    exact .inr ⟨hphase, fun hc => hf (hcap.2 hc), by simp [Knows, hphase, huw, htw, ringFull, nextIdx, hf]⟩

/-- P3 writes the slot of the write index: no element of the queue, and no slot a pop reads. -/
theorem pushP3_kept (hp : (s.port p).phase = .pushP3) (hothers : ∀ q, q ≠ p → (s.port q).phase.pushing = false)
    (hx : exec (.rbPush (s.port p).wdata) (s.turn p b) = .next t) : TurnKept p b s t := by
  obtain ⟨-, -, hw, hr, -⟩ := State.wf_iff.1 hwf
  have hwdata : (s.port p).wdata < 2 ^ s.params.elemW := by
    obtain ⟨-, -, hwdata, -⟩ := State.me_in_flight (s := s.turn p b) (o := .rbPush) hwf (by simp [hp, Phase.opc])
    exact hwdata
  obtain ⟨htw, hroom⟩ : (s.port p).tW = s.writeIndex ∧ _ := by simpa only [Knows, hp] using h.knows p
  obtain ⟨u, hu, hphase, hutw, huwdata, hparams, hi, hread, hslots, hports⟩ :=
    push_turn_put (s := s) b _ hwdata hp (by rwa [htw])
  cases hu.symm.trans hx
  have ⟨hw', hr'⟩ := hi
  rw [htw] at hutw hread hslots
  refine ⟨⟨fun hhalf k hk => ?_, fun q => ?_⟩, queueEffect_of_same b ?_ (by rw [hp]; decide)⟩
  · rw [State.count, hparams, hw', hr'] at hk
    rw [hparams, hr', (hslots _ (live_ne_writeIndex hw hr hk)).2]
    refine h.live (fun q => ?_) k hk
    by_cases hq : q = p
    · rw [hq, hp]
      rfl
    · exact hports q hq ▸ hhalf q
  · by_cases hq : q = p
    · simp [hq, Knows, hphase, hutw, hw', hr', hparams, hroom, hread, huwdata]
    · rw [hports q hq]
      exact (h.knows q).after_put hi (fun i hi => (hslots i hi).1) (hothers q hq)
  · exact State.queue_congr hparams hi fun k hk => (hslots _ (live_ne_writeIndex hw hr hk)).1

/-- P4 appends the element. -/
theorem pushP4_kept {v : Elem} (hp : (s.port p).phase = .pushP4)
    (hothers : ∀ q, q ≠ p → (s.port q).phase.pushing = false ∧ (s.port q).phase.clearing = false)
    (hx : exec (.rbPush v) (s.turn p b) = .next t) : TurnKept p b s t := by
  obtain ⟨-, -, hw, hr, -⟩ := State.wf_iff.1 hwf
  obtain ⟨htw, hroom, hread⟩ : (s.port p).tW = s.writeIndex ∧ _ ∧ _ := by simpa only [Knows, hp] using h.knows p
  obtain ⟨u, hu, hphase, hok, hparams, hw', hr', hstore, hports⟩ := push_turn_store b v hp
  cases hu.symm.trans hx
  rw [htw] at hw'
  have hslot : t.slot s.writeIndex = (s.port p).wdata := by rw [(hstore _).2, State.slot_of_read hread]
  refine ⟨⟨fun hhalf k hk => ?_, fun q => ?_⟩, ?_⟩
  · rw [State.count, hparams, hw', hr', ringSize_nextIdx_write hw hr hroom] at hk
    rw [hparams, hr', (hstore _).1]
    rcases Nat.lt_succ_iff_lt_or_eq.1 hk with hlt | rfl
    · refine h.live (fun q => ?_) k hlt
      by_cases hq : q = p
      · rw [hq, hp]
        rfl
      · exact hports q hq ▸ hhalf q
    · rw [add_ringSize_mod hw hr, hread]
      exact Option.some_ne_none _
  · by_cases hq : q = p
    · exact hq ▸ knows_of_idle hphase
    · rw [hports q hq]
      exact (h.knows q).after_append hw' hr' hstore hroom (hothers q hq)
  · have hqueue := State.queue_append hparams hw hr hw' hr' hroom fun i _ => (hstore i).2
    rw [hslot] at hqueue
    simp [QueueEffect, hp, hqueue, hphase, hok]

theorem push_kept (hroles : RolesInFlight r s) (ho : (s.port p).phase.opc = some .rbPush)
    (hx : exec (.rbPush (s.port p).wdata) (s.turn p b) = .next t) : TurnKept p b s t := by
  obtain ⟨-, -, hw, -⟩ := State.wf_iff.1 hwf
  have hpush : (s.port p).phase.pushing = true := by simp [Phase.pushing, ho]
  have hothers : ∀ q, q ≠ p → (s.port q).phase.pushing = false ∧ (s.port q).phase.clearing = false := by
    refine fun q hq => ⟨Bool.eq_false_iff.2 fun hq' => hq ?_, Bool.eq_false_iff.2 fun hc => ?_⟩
    · rw [hroles.push q hq', hroles.push p hpush]
    · simp [(hroles.clear q p hc).1] at hpush
  have hl := mem_opcLabels ho
  simp only [opcLabels, List.mem_cons, List.not_mem_nil, or_false] at hl
  rcases hl with hp | hp | hp | hp
  · obtain ⟨u, hu, hphase, htw, hsame⟩ := push_turn_load b _ hp hw
    cases hu.symm.trans hx
    exact ⟨h.of_same hsame (fun _ => by rw [hp]; rfl) (by simp [Knows, hphase, htw]),
      queueEffect_of_same b hsame.1.queue_eq (by rw [hp]; decide)⟩
  · exact pushP2_kept hwf h hp hx
  · exact pushP3_kept hwf h hp (fun q hq => (hothers q hq).1) hx
  · exact pushP4_kept hwf h hp hothers hx

end Push

/-! ## RB.POP and RB.POPT -/

section Pop

variable {r : Roles} {s t : State} {p : Nat} {b : Bool} (hwf : s.wf = true) (h : LabelsTrue s)

include hwf h

/-- C1 of either pop. -/
theorem popC1_kept {l : Phase} (hl : l = .popC2 ∨ l = .poptC2)
    (hp : (s.port p).phase = .popC1 ∨ (s.port p).phase = .poptC1)
    (hx : popLoadRead l (s.turn p b) = .next t) : TurnKept p b s t := by
  obtain ⟨-, -, -, hr, -⟩ := State.wf_iff.1 hwf
  have hlen : p < s.ports.length := State.lt_length_of_busy (by rcases hp with hp | hp <;> rw [hp] <;> decide)
  obtain ⟨u, hu, htr, hphase, -, -, -, -, he, hs, -⟩ := popLoadRead_effect (s := s.turn p b) l hlen hr
  cases hu.symm.trans hx
  rw [he.me_of_turn] at htr hphase
  have hsame := TurnSame.of_turn he hs
  refine ⟨h.of_same hsame (fun _ => by rcases hp with hp | hp <;> rw [hp] <;> rfl) ?_,
    queueEffect_of_same b hsame.1.queue_eq (by rcases hp with hp | hp <;> rw [hp] <;> decide)⟩
  rcases hl with rfl | rfl <;> simp [Knows, hphase, htr]

/-- C2 of either pop goes on to the label `none'` exactly with an empty queue, and to `found` with an element. -/
theorem popC2_outcome {found none' : Phase} (hfound : found = .popC3 ∨ found = .poptC3)
    (hnone' : none' = .idle ∨ none' = .poptT1) (hp : (s.port p).phase = .popC2 ∨ (s.port p).phase = .poptC2)
    (hsame : TurnSame p s t) (htr : (t.port p).tR = (s.port p).tR)
    (hempty : (s.port p).tR = s.writeIndex → (t.port p).phase = none')
    (hsome : (s.port p).tR ≠ s.writeIndex → (t.port p).phase = found) :
    LabelsTrue t ∧ t.queue = s.queue ∧ ((t.port p).phase = none' ↔ s.queue = []) := by
  obtain ⟨-, -, hw, hr, -⟩ := State.wf_iff.1 hwf
  have hloaded : (s.port p).tR = s.readIndex := by
    have hk := h.knows p
    rcases hp with hp | hp <;> simpa only [Knows, hp] using hk
  have hhalf : (s.port p).phase.halfCleared = false := by rcases hp with hp | hp <;> rw [hp] <;> rfl
  rw [hloaded] at htr hempty hsome
  rw [State.queue_eq_nil_iff hw hr]
  by_cases hi : s.readIndex = s.writeIndex
  · have hphase := hempty hi
    refine ⟨h.of_same hsame (fun _ => hhalf) ?_, hsame.1.queue_eq, by simp [hphase, hi]⟩
    rcases hnone' with rfl | rfl <;> simp [Knows, hphase]
  · have hphase := hsome hi
    refine ⟨h.of_same hsame (fun _ => hhalf) ?_, hsame.1.queue_eq, ?_⟩
    · rcases hfound with rfl | rfl <;> simp [Knows, hphase, htr, Ne.symm hi]
    · rcases hfound with rfl | rfl <;> rcases hnone' with rfl | rfl <;> simp [hphase, Ne.symm hi]

theorem popC2_kept (hp : (s.port p).phase = .popC2) (hx : exec .rbPop (s.turn p b) = .next t) : TurnKept p b s t := by
  obtain ⟨-, -, hw, -⟩ := State.wf_iff.1 hwf
  obtain ⟨u, hu, -, htr, -, hnone, hsome, -, -, he, hs, -⟩ := (popMicroSteps.2 (s.turn p b)).2.1 hp hw
  cases hu.symm.trans hx
  rw [he.me_of_turn] at htr hsome
  rw [Completed, he.me_of_turn] at hnone
  obtain ⟨hlabels, hqueue, hiff⟩ := popC2_outcome hwf h (.inl rfl) (.inl rfl) (.inl hp) (.of_turn he hs) htr
    (fun hi => (hnone hi).1) (fun hi => (hsome hi).1)
  exact ⟨hlabels, by simpa [QueueEffect, hp] using ⟨hqueue, hiff⟩⟩

theorem poptC2_kept {d : Word} (hp : (s.port p).phase = .poptC2) (hx : exec (.rbPopt d) (s.turn p b) = .next t) :
    TurnKept p b s t := by
  obtain ⟨-, -, hw, -⟩ := State.wf_iff.1 hwf
  obtain ⟨u, hu, -, htr, -, hnone, hsome, -, -, he, hs, -⟩ := (poptMicroSteps.2 (s.turn p b) d).2.2.1 hp hw
  cases hu.symm.trans hx
  rw [he.me_of_turn] at htr hsome hnone
  obtain ⟨hlabels, hqueue, hiff⟩ :=
    popC2_outcome hwf h (.inr rfl) (.inr rfl) (.inr hp) (.of_turn he hs) htr hnone hsome
  exact ⟨hlabels, by simpa [QueueEffect, hp] using ⟨hqueue, hiff⟩⟩

/-- C3 of either pop reads the head of the queue. -/
theorem popC3_kept {l : Phase} (hl : l = .popC4 ∨ l = .poptC4)
    (hp : (s.port p).phase = .popC3 ∨ (s.port p).phase = .poptC3)
    (hx : popRead l (s.turn p b) = .next t) : TurnKept p b s t := by
  obtain ⟨-, -, -, hr, -⟩ := State.wf_iff.1 hwf
  have hlen : p < s.ports.length := State.lt_length_of_busy (by rcases hp with hp | hp <;> rw [hp] <;> decide)
  obtain ⟨htr, hne⟩ : (s.port p).tR = s.readIndex ∧ s.writeIndex ≠ s.readIndex := by
    have hk := h.knows p
    rcases hp with hp | hp <;> simpa only [Knows, hp] using hk
  obtain ⟨u, hu, hv, hphase, -, hur, -, -, he, hs, -⟩ :=
    popRead_effect (s := s.turn p b) l hlen (by rwa [State.turn_me, htr])
  cases hu.symm.trans hx
  rw [he.me_of_turn, State.turn_me, htr] at hv hur
  rw [he.me_of_turn] at hphase
  have hsame := TurnSame.of_turn he hs
  refine ⟨h.of_same hsame (fun _ => by rcases hp with hp | hp <;> rw [hp] <;> rfl) ?_,
    queueEffect_of_same b hsame.1.queue_eq (by rcases hp with hp | hp <;> rw [hp] <;> decide)⟩
  rcases hl with rfl | rfl <;> simp [Knows, hphase, hur, hne, hv]

/-- C4 of either pop takes the head off the queue and answers it. -/
theorem popC4_kept (hp : (s.port p).phase = .popC4 ∨ (s.port p).phase = .poptC4)
    (hothers : ∀ q, q ≠ p → (s.port q).phase.popping = false ∧ (s.port q).phase.clearing = false)
    (hx : popFinish (s.turn p b) = .next t) : TurnKept p b s t := by
  obtain ⟨-, -, hw, hr, -, hrange, -⟩ := State.wf_iff.1 hwf
  have hlen : p < s.ports.length := State.lt_length_of_busy (by rcases hp with hp | hp <;> rw [hp] <;> decide)
  obtain ⟨htr, hne, hv⟩ : (s.port p).tR = s.readIndex ∧ s.writeIndex ≠ s.readIndex ∧
      (s.port p).tV = s.slot s.readIndex := by
    have hk := h.knows p
    rcases hp with hp | hp <;> simpa only [Knows, hp] using hk
  obtain ⟨u, hu, hr', hw', hdone, -, hstore, -, -, -, he, -⟩ :=
    popFinish_effect (s := s.turn p b) hlen (by rw [State.turn_me, hv]; exact State.slot_fits hrange _)
  cases hu.symm.trans hx
  have hparams : t.params = s.params := he.params_eq
  rw [State.turn_me, htr, State.turn_params, ← nextIdx] at hr'
  rw [Completed, he.me_of_turn, State.turn_me, hv] at hdone
  obtain ⟨hphase, -, hok, hdata, -⟩ := hdone
  have hsize := ringSize_nextIdx_read hw hr hne
  have hqueue := State.queue_take hparams hw hr hw' hr' hne fun i => (hstore i).2
  refine ⟨⟨fun hhalf k hk => ?_, fun q => ?_⟩, ?_⟩
  · rw [State.count, hparams, hw', hr', State.turn_writeIndex] at hk
    rw [hparams, hr', (hstore _).1, nextIdx_add_mod]
    refine h.live (fun q => ?_) (k + 1) (by rw [State.count]; omega)
    by_cases hq : q = p
    · rcases hp with hp | hp <;> rw [hq, hp] <;> rfl
    · exact he.1 q hq ▸ hhalf q
  · by_cases hq : q = p
    · exact hq ▸ knows_of_idle hphase
    · have hroom : ringFull s.params s.writeIndex t.readIndex = false := by
        rw [hr']
        exact Bool.eq_false_iff.2 fun hf => hne (nextIdx_inj hw hr (by simpa [ringFull] using hf))
      rw [he.1 q hq]
      exact (h.knows q).after_take hparams hw' hroom hstore (hothers q hq)
  · rcases hp with hp | hp <;> simp [QueueEffect, hp, hdata, hphase, hok, hqueue]

/-- The labels of RB.POPT that touch the deadline only. -/
theorem popt_wait_kept {d : Word} (hp : (s.port p).phase = .poptT0 ∨ (s.port p).phase = .poptT1 ∨
    (s.port p).phase = .poptT2) (hx : exec (.rbPopt d) (s.turn p b) = .next t) : TurnKept p b s t := by
  have hlen : p < s.ports.length := State.lt_length_of_busy (by rcases hp with hp | hp | hp <;> rw [hp] <;> decide)
  have he := exec_elsewhere hx
  have hsame := TurnSame.of_ringSame he
    (exec_ringSame hwf hx (by rcases hp with hp | hp | hp <;> simp [hp, ringStores]))
  have hknows : Knows s t.me := by
    rcases hp with hp | hp | hp
    · obtain ⟨u, hu, -, -, hphase, -⟩ := startDeadline_effect (s := s.turn p b) d .poptC1 hlen
      cases hu.symm.trans ((exec_rbPopt_of_poptT0 (s := s.turn p b) d hp).symm.trans hx)
      simp [Knows, hphase]
    · obtain ⟨u, hu, -, -, hend, hgo, -⟩ := checkDeadline_effect (s := s.turn p b) .poptT2 hlen
      cases hu.symm.trans ((exec_rbPopt_of_poptT1 (s := s.turn p b) d hp).symm.trans hx)
      cases hexp : dlExpired (s.turn p b).me.tDl (s.turn p b).tick
      · simp [Knows, (hgo hexp).1]
      · exact knows_of_idle (hend hexp).1
    · cases (exec_rbPopt_of_poptT2 (s := s.turn p b) d hp).symm.trans hx
      simp [Knows, (goto_effect (s := s.turn p b) .poptC1 hlen).1]
  rw [he.me_of_turn] at hknows
  exact ⟨h.of_same hsame (fun _ => by rcases hp with hp | hp | hp <;> rw [hp] <;> rfl) hknows,
    queueEffect_of_same b hsame.1.queue_eq (by rcases hp with hp | hp | hp <;> rw [hp] <;> decide)⟩

omit hwf h in
/-- While a pop is in flight no other port has one, and none has a clear. -/
theorem RolesInFlight.others_of_popping (hroles : RolesInFlight r s) (hpop : (s.port p).phase.popping = true) :
    ∀ q, q ≠ p → (s.port q).phase.popping = false ∧ (s.port q).phase.clearing = false := by
  refine fun q hq => ⟨Bool.eq_false_iff.2 fun hq' => hq ?_, Bool.eq_false_iff.2 fun hc => ?_⟩
  · rw [hroles.pop q hq', hroles.pop p hpop]
  · simp [(hroles.clear q p hc).2] at hpop

theorem pop_kept (hroles : RolesInFlight r s) (ho : (s.port p).phase.opc = some .rbPop)
    (hx : exec .rbPop (s.turn p b) = .next t) : TurnKept p b s t := by
  have hothers := hroles.others_of_popping (p := p) (by simp [Phase.popping, ho])
  have hl := mem_opcLabels ho
  simp only [opcLabels, List.mem_cons, List.not_mem_nil, or_false] at hl
  rcases hl with hp | hp | hp | hp
  · exact popC1_kept hwf h (.inl rfl) (.inl hp) ((exec_rbPop_of_popC1 (s := s.turn p b) hp).symm.trans hx)
  · exact popC2_kept hwf h hp hx
  · exact popC3_kept hwf h (.inl rfl) (.inl hp) ((exec_rbPop_of_popC3 (s := s.turn p b) hp).symm.trans hx)
  · exact popC4_kept hwf h (.inl hp) hothers ((exec_rbPop_of_popC4 (s := s.turn p b) hp).symm.trans hx)

theorem popt_kept {d : Word} (hroles : RolesInFlight r s) (ho : (s.port p).phase.opc = some .rbPopt)
    (hx : exec (.rbPopt d) (s.turn p b) = .next t) : TurnKept p b s t := by
  have hothers := hroles.others_of_popping (p := p) (by simp [Phase.popping, ho])
  have hl := mem_opcLabels ho
  simp only [opcLabels, List.mem_cons, List.not_mem_nil, or_false] at hl
  rcases hl with hp | hp | hp | hp | hp | hp | hp
  · exact popt_wait_kept hwf h (.inl hp) hx
  · exact popC1_kept hwf h (.inr rfl) (.inr hp) ((exec_rbPopt_of_poptC1 (s := s.turn p b) d hp).symm.trans hx)
  · exact poptC2_kept hwf h hp hx
  · exact popC3_kept hwf h (.inr rfl) (.inr hp) ((exec_rbPopt_of_poptC3 (s := s.turn p b) d hp).symm.trans hx)
  · exact popC4_kept hwf h (.inr hp) hothers ((exec_rbPopt_of_poptC4 (s := s.turn p b) d hp).symm.trans hx)
  · exact popt_wait_kept hwf h (.inr (.inl hp)) hx
  · exact popt_wait_kept hwf h (.inr (.inr hp)) hx

end Pop

/-! ## RB.CLEAR and the operations that leave the ring as it is -/

section Others

variable {r : Roles} {s t : State} {p : Nat} {b : Bool} (h : LabelsTrue s)

include h

theorem clear_kept (hroles : RolesInFlight r s) (ho : (s.port p).phase.opc = some .rbClear)
    (hx : exec .rbClear (s.turn p b) = .next t) : TurnKept p b s t := by
  have hothers : ∀ q, (s.port q).phase.pushing = false ∧ (s.port q).phase.popping = false :=
    fun q => hroles.clear p q (by simp [Phase.clearing, ho])
  have he := exec_elsewhere hx
  have hports : ∀ q, q ≠ p → t.port q = s.port q := he.1
  have hl := mem_opcLabels ho
  simp only [opcLabels, List.mem_cons, List.not_mem_nil, or_false] at hl
  rcases hl with hp | hp | hp
  · obtain ⟨u, hu, hwrite, hread, -⟩ := exec_rbClear_first_effect (s := s.turn p b) hp
    cases hu.symm.trans hx
    rw [he.me_of_turn] at hwrite hread
    suffices hgo : (t.writeIndex = s.writeIndex ∨ t.writeIndex = 0) ∧ (t.readIndex = s.readIndex ∨ t.readIndex = 0) ∧
        (t.port p).phase.halfCleared = true ∧ Knows t (t.port p) by
      obtain ⟨hw, hr, hhalf, hown⟩ := hgo
      refine ⟨⟨fun hclear => ?_, fun q => ?_⟩, by simp [QueueEffect, hp]⟩
      · simp [hclear p] at hhalf
      · by_cases hq : q = p
        · exact hq ▸ hown
        · rw [hports q hq]
          exact (h.knows q).after_clear hw hr (hothers q)
    cases b
    · obtain ⟨hw, hr, hphase⟩ := hwrite rfl
      exact ⟨.inr hw, .inl hr, by rw [hphase]; rfl, by simp [Knows, hphase, hw]⟩
    · obtain ⟨hr, hw, hphase⟩ := hread rfl
      exact ⟨.inl hw, .inr hr, by rw [hphase]; rfl, by simp [Knows, hphase, hr]⟩
  all_goals
    suffices hgo : t.writeIndex = 0 ∧ t.readIndex = 0 ∧ (t.port p).phase = .idle by
      obtain ⟨hw, hr, hphase⟩ := hgo
      have hi : t.writeIndex = t.readIndex := hw.trans hr.symm
      refine ⟨⟨.of_indices_eq hi, fun q => ?_⟩, by simp [QueueEffect, hp, State.queue_of_indices_eq hi]⟩
      by_cases hq : q = p
      · exact hq ▸ knows_of_idle hphase
      · rw [hports q hq]
        exact (h.knows q).after_clear (.inr hw) (.inr hr) (hothers q)
    rw [← he.me_of_turn]
    have hk := h.knows p
    simp only [Knows, hp] at hk
  · obtain ⟨u, hu, hw, hr, ⟨hphase, -⟩, -⟩ := exec_rbClear_clearK1_effect (s := s.turn p b) hp
    cases hu.symm.trans hx
    exact ⟨hw, hr.trans hk, hphase⟩
  · obtain ⟨u, hu, hr, hw, ⟨hphase, -⟩, -⟩ := exec_rbClear_clearK2_effect (s := s.turn p b) hp
    cases hu.symm.trans hx
    exact ⟨hw.trans hk, hr, hphase⟩

/-- A turn at a label of no ring operation that stores. -/
theorem outside_kept (ho : (s.port p).phase.pushing = false ∧ (s.port p).phase.popping = false ∧
    (s.port p).phase.clearing = false) (hsame : TurnSame p s t)
    (hphase : (t.port p).phase = .idle ∨ (t.port p).phase.opc = (s.port p).phase.opc) : TurnKept p b s t := by
  have hown : Knows s (t.port p) := by
    rcases hphase with hi | hopc
    · exact knows_of_idle hi
    · exact knows_of_opc (by simpa [Phase.pushing, Phase.popping, Phase.clearing, hopc] using ho)
  refine ⟨h.of_same hsame (fun _ => ?_) hown, queueEffect_of_same b hsame.1.queue_eq fun hmem => ?_⟩
  · cases hl : (s.port p).phase <;> simp_all [Phase.halfCleared, Phase.clearing, Phase.opc]
  · cases hl : (s.port p).phase <;> simp_all [tableRows, Phase.pushing, Phase.popping, Phase.clearing, Phase.opc]

/-- Every micro-step of an operation in flight keeps the labels true and has the effect of the table. -/
theorem exec_kept (hwf : s.wf = true) (hroles : RolesInFlight r s) {o : Opc} (ho : (s.port p).phase.opc = some o)
    (hx : exec (o.instr (s.port p).cmd) (s.turn p b) = .next t) : TurnKept p b s t := by
  by_cases hring : o ∈ [Opc.rbPush, .rbPop, .rbPopt, .rbClear]
  · simp only [List.mem_cons, List.not_mem_nil, or_false] at hring
    rcases hring with rfl | rfl | rfl | rfl
    · exact push_kept hwf h hroles ho hx
    · exact pop_kept hwf h hroles ho hx
    · exact popt_kept hwf h hroles ho hx
    · exact clear_kept h hroles ho hx
  · have he := exec_elsewhere hx
    have hphase := exec_opc_kept (s := s.turn p b) hwf hx
    rw [he.me_of_turn] at hphase
    have hstores : (s.port p).phase ∉ ringStores := fun hmem => by
      cases hl : (s.port p).phase <;> simp_all [ringStores, Phase.opc]
    refine outside_kept h ?_ (.of_ringSame he (exec_ringSame hwf hx hstores)) hphase
    simp only [Phase.pushing, Phase.popping, Phase.clearing, ho]
    cases o <;> simp_all

end Others

end Sys2Proof.Machine
end

section
/-! Over all steps: a step that keeps the ring's disciplines keeps the ring's invariant and has one effect on the
abstract queue (42_ringbuffer.md R185), and what runs of such steps append and take (R182). -/

namespace Sys2Proof.Machine

/-! ## The inputs that are no turn -/

section Inputs

variable {r : Roles} {s t : State}

/-- A step that touches no port and no register of the ring. -/
theorem LabelsTrue.of_ports_same (h : LabelsTrue s) (hring : RingSame s t) (hports : ∀ q, t.port q = s.port q) :
    LabelsTrue t :=
  h.of_same (p := 0) ⟨hring, fun q _ => hports q⟩ (by rw [hports]; exact id) (by rw [hports]; exact h.knows 0)

theorem RolesInFlight.of_ports_same (h : RolesInFlight r s) (hports : ∀ q, t.port q = s.port q) : RolesInFlight r t :=
  h.of_opc fun q => .inr (by rw [hports])

/-- The reset leaves no operation in flight. -/
theorem hwReset_port_idle (s : State) (p : Nat) : (s.hwReset.port p).phase = .idle := by
  simp only [State.port, State.hwReset_ports, List.getD, List.getElem?_replicate]
  split <;> rfl

/-- What the disciplines say of a command an idle port latches (70_reset_and_hazards.md R270, R274). -/
theorem issue_disciplined {p : Nat} {m : Cmd} (hd : s.ringDisciplined r = true) (hin : s.nextInput = .issue p m)
    (hidle : (s.port p).phase = .idle) {o : Opc} (ho : Opc.ofByte m.op = some o) :
    spscOk r (p, o.instr m) = true ∧ clearOk s (p, o.instr m) = true := by
  have hdec : decode? m = some (o.instr m) := by simp [decode?, decode_of_ofByte ho, Except.toOption]
  simpa [State.ringDisciplined, hin, issued, State.cmdReady, hidle, hdec] using hd

/-- An issue that keeps the disciplines keeps the roles. -/
theorem RolesInFlight.after_issue {p : Nat} {m : Cmd} (h : RolesInFlight r s) (hd : s.ringDisciplined r = true)
    (hin : s.nextInput = .issue p m) (hidle : (s.port p).phase = .idle) (hopc : (t.port p).phase.opc = Opc.ofByte m.op)
    (hothers : ∀ q, q ≠ p → t.port q = s.port q) : RolesInFlight r t := by
  have hok {o : Opc} := issue_disciplined (o := o) hd hin hidle
  have hpush : (t.port p).phase.pushing = true → p = r.producer ∧ s.clearBusy = false := by
    intro hp
    rw [Phase.pushing, hopc, beq_iff_eq] at hp
    simpa [spscOk, clearOk, Opc.instr] using hok hp
  have hpop : (t.port p).phase.popping = true → p = r.consumer ∧ s.clearBusy = false := by
    intro hp
    rw [Phase.popping, hopc, Bool.or_eq_true, beq_iff_eq, beq_iff_eq] at hp
    rcases hp with hp | hp <;> simpa [spscOk, clearOk, Opc.instr] using hok hp
  have hclear : (t.port p).phase.clearing = true → s.ringBusy = false ∧
      (t.port p).phase.pushing = false ∧ (t.port p).phase.popping = false := by
    intro hp
    rw [Phase.clearing, hopc, beq_iff_eq] at hp
    rw [Phase.pushing, Phase.popping, hopc, hp]
    have hbusy := (hok hp).2
    exact ⟨by simpa [clearOk, Opc.instr] using hbusy, by decide⟩
  refine ⟨fun q hq => ?_, fun q hq => ?_, fun a q ha => ?_⟩
  · by_cases hqp : q = p
    · exact hqp ▸ (hpush (hqp ▸ hq)).1
    · exact h.push q (hothers q hqp ▸ hq)
  · by_cases hqp : q = p
    · exact hqp ▸ (hpop (hqp ▸ hq)).1
    · exact h.pop q (hothers q hqp ▸ hq)
  · by_cases hap : a = p
    · subst hap
      obtain ⟨hbusy, hown⟩ := hclear ha
      by_cases hqp : q = a
      · exact hqp ▸ hown
      · rw [hothers q hqp]
        exact (ringBusy_eq_false_iff s).1 hbusy q
    · rw [hothers a hap] at ha
      have hcb : s.clearBusy = true := (clearBusy_iff s).2 ⟨a, ha⟩
      by_cases hqp : q = p
      · subst hqp
        exact ⟨Bool.eq_false_iff.2 fun hq => by simp [hcb] at hpush; simp [hpush] at hq,
          Bool.eq_false_iff.2 fun hq => by simp [hcb] at hpop; simp [hpop] at hq⟩
      · rw [hothers q hqp]
        exact h.clear a q ha

end Inputs

/-! ## The step -/

/-- A turn's effect is the step's. -/
theorem queueEffect_of_turn {s t : State} {p : Nat} {b : Bool} (hin : s.nextInput = .micro p b)
    (h : QueueEffect (s.begin.offered (.micro p b)) t) : QueueEffect s t := by
  simpa [QueueEffect, hin] using h

/-- A turn of a port: nothing on an idle one, X1, or a micro-step of its operation. -/
theorem microStep_kept {r : Roles} {s t : State} {p : Nat} {b : Bool} (hwf : s.wf = true) (hroles : RolesInFlight r s)
    (h : LabelsTrue s) (hx : microStep p b s = .next t) : RolesInFlight r t ∧ TurnKept p b s t := by
  obtain ⟨hp, ⟨hi, rfl⟩ | ⟨hr, rfl⟩ | ⟨i, hi, hr, hd, hx⟩⟩ := microStep_cases hx
  · refine ⟨hroles, outside_kept h (by rw [hi]; decide) ⟨?_, fun _ _ => rfl⟩ (.inl hi)⟩
    exact .of_registers rfl rfl rfl rfl rfl
  · have hlen : p < s.ports.length := State.lt_length_of_busy (by rw [hr]; decide)
    have hport : (((s.turn p b).complete true false 0).port p).phase = .idle := by
      rw [State.port_complete _ _ _ _ hlen, if_pos (State.turn_active s p b).symm]
      rfl
    have hothers : ∀ q, q ≠ p → ((s.turn p b).complete true false 0).port q = s.port q :=
      fun q hq => State.port_complete_ne _ _ _ hq
    refine ⟨hroles.of_opc fun q => ?_, outside_kept h (by rw [hr]; decide) ⟨?_, hothers⟩ (.inl hport)⟩
    · by_cases hq : q = p
      · exact .inl (hq ▸ hport)
      · exact .inr (by rw [hothers q hq])
    · exact .of_registers rfl rfl rfl rfl rfl
  · obtain ⟨o, ho⟩ := opc_of_busy hi hr
    have he := exec_elsewhere hx
    have hphase := exec_opc_kept (s := s.turn p b) hwf hx
    rw [he.me_of_turn] at hphase
    have hinstr : i = o.instr (s.port p).cmd := instr_of_exec (s := s.turn p b) hd hx ho
    refine ⟨hroles.of_opc fun q => ?_, exec_kept h hwf hroles ho (hinstr ▸ hx)⟩
    by_cases hq : q = p
    · exact hq ▸ hphase
    · exact .inr (by rw [he.1 q hq, State.turn_port])

/-- A disciplined step keeps the invariant and has the effect of the table. -/
theorem step_kept {r : Roles} {s t : State} (h : RingKept r s) (hd : s.ringDisciplined r = true)
    (hx : step s = .next t) : RingKept r t ∧ QueueEffect s t := by
  have hbegin : RingSame s s.begin := (RingSame.begin_turn s 0 false).trans (.of_registers rfl rfl rfl rfl rfl)
  have hroles := h.rolesInFlight
  have hlabels := h.labelsTrue
  suffices hparts : RolesInFlight r t ∧ LabelsTrue t ∧ QueueEffect s t by
    obtain ⟨hroles', hlabels', heffect⟩ := hparts
    exact ⟨.of_parts (step_wf h.wf hx) h.apart hroles' hlabels', heffect⟩
  rcases step_cases hx with ⟨hin, rfl⟩ | ⟨hin, rfl⟩ | ⟨p, m, hin, hs⟩ | ⟨p, b, hin, hs⟩
  · have hsame : RingSame s s.begin.tickStep := hbegin.trans (.of_registers rfl rfl rfl rfl rfl)
    have hports : ∀ q, s.begin.tickStep.port q = s.port q := by simp
    exact ⟨hroles.of_ports_same hports, hlabels.of_ports_same hsame hports,
      by simpa [QueueEffect, hin] using hsame.queue_eq⟩
  · have hi : s.begin.hwReset.writeIndex = s.begin.hwReset.readIndex := rfl
    exact ⟨hroles.of_opc fun q => .inl (hwReset_port_idle _ q),
      ⟨.of_indices_eq hi, fun q => knows_of_idle (hwReset_port_idle _ q)⟩,
      by simp [QueueEffect, hin, State.queue_of_indices_eq hi]⟩
  · obtain ⟨hp, ⟨hidle, rfl⟩ | ⟨-, rfl⟩⟩ := issueStep_cases hs
    · rw [State.begin_port] at hidle ⊢
      obtain ⟨-, hlen, -⟩ := State.wf_iff.1 h.wf
      have hport : (s.begin.setPort p ((s.port p).latch s.begin.params m)).port p = (s.port p).latch s.begin.params m :=
        State.port_setPort_same _ (by simpa [hlen] using hp)
      have hopc : ((s.port p).latch s.begin.params m).phase.opc = Opc.ofByte m.op := firstPhase_opc m.op
      have hothers : ∀ q, q ≠ p → (s.begin.setPort p ((s.port p).latch s.begin.params m)).port q = s.port q :=
        fun q hq => by rw [State.port_setPort_ne _ hq, State.begin_port]
      have hsame : RingSame s (s.begin.setPort p ((s.port p).latch s.begin.params m)) :=
        hbegin.trans (.of_registers rfl rfl rfl rfl rfl)
      refine ⟨hroles.after_issue hd hin hidle (by rw [hport, hopc]) hothers,
        hlabels.of_same ⟨hsame, hothers⟩ (fun _ => by rw [hidle]; rfl) ?_,
        by simpa [QueueEffect, hin] using hsame.queue_eq⟩
      rw [hport]
      exact knows_latch _ _ m
    · have hports : ∀ q, s.begin.port q = s.port q := by simp
      exact ⟨hroles.of_ports_same hports, hlabels.of_ports_same hbegin hports,
        by simp [QueueEffect, hin]⟩
  · have hports : ∀ q, s.begin.port q = s.port q := by simp
    obtain ⟨hroles', hlabels', heffect⟩ := microStep_kept (State.begin_wf h.wf) (hroles.of_ports_same hports)
      (hlabels.of_ports_same hbegin hports) hs
    exact ⟨hroles', hlabels', queueEffect_of_turn hin heffect⟩

/-- Settles O55: the machine takes its step, and `step_kept`. -/
theorem ringLinearises : Obligations.RingLinearises := by
  intro r s h hd
  obtain ⟨t, ht⟩ := step_goes_on h.wf
  exact ⟨t, ht, step_kept h hd ht⟩

/-! ## Runs -/

/-- Outside an emptying only P4 and C4 touch the queue. -/
theorem QueueEffect.queue_eq {s t : State} (h : QueueEffect s t) (hquiet : s.emptying = false)
    (hphase : s.nextPhase ≠ .pushP4 ∧ s.nextPhase ≠ .popC4 ∧ s.nextPhase ≠ .poptC4) : t.queue = s.queue := by
  cases hin : s.nextInput with
  | tick => simpa [QueueEffect, hin] using h
  | rst => simp [State.emptying, hin] at hquiet
  | issue p m => simpa [QueueEffect, hin] using h
  | micro p b =>
    have hnext : s.nextPhase = (s.port p).phase := by simp [State.nextPhase, hin]
    rw [hnext] at hphase
    cases hp : (s.port p).phase <;>
      simp_all [QueueEffect, State.emptying, State.nextPhase, Phase.clearing, Phase.opc]

/-- The law of one step: what it appends comes after the queue, what it takes comes before what is left. -/
theorem queue_step {r : Roles} {s t : State} (h : RingKept r s) (heffect : QueueEffect s t)
    (hquiet : s.emptying = false) : s.queue ++ s.appended = s.taken ++ t.queue := by
  obtain ⟨-, -, -, hr, -⟩ := State.wf_iff.1 h.wf
  by_cases hphase : s.nextPhase ≠ .pushP4 ∧ s.nextPhase ≠ .popC4 ∧ s.nextPhase ≠ .poptC4
  · have happ : s.appended = [] := by
      unfold State.appended
      split
      · next hp => exact absurd hp hphase.1
      · rfl
    have htak : s.taken = [] := by
      unfold State.taken
      split
      · next hp => exact absurd hp hphase.2.1
      · next hp => exact absurd hp hphase.2.2
      · rfl
    simp [happ, htak, heffect.queue_eq hquiet hphase]
  · cases hin : s.nextInput with
    | tick => simp [State.nextPhase, hin] at hphase
    | rst => simp [State.nextPhase, hin] at hphase
    | issue p m => simp [State.nextPhase, hin] at hphase
    | micro p b =>
      have hp : (s.port p).phase = .pushP4 ∨ (s.port p).phase = .popC4 ∨ (s.port p).phase = .poptC4 := by
        have hnext : s.nextPhase = (s.port p).phase := by simp [State.nextPhase, hin]
        rw [hnext] at hphase
        tauto
      rcases hp with hp | hpop
      · obtain ⟨hq, -⟩ : t.queue = s.queue ++ [(s.port p).wdata] ∧ _ ∧ _ := by
          simpa [QueueEffect, hin, hp] using heffect
        simp [State.appended, State.taken, State.nextPhase, State.nextPort, hin, hp, hq]
      · have hq : s.queue = (t.port p).rspData :: t.queue := by
          rcases hpop with hp | hp <;> simp [QueueEffect, hin, hp] at heffect <;> exact heffect.1
        have hv : (s.port p).tV = (t.port p).rspData := (h.element_read p hpop).trans (State.queue_head hr hq).symm
        rcases hpop with hp | hp <;>
          simp [State.appended, State.taken, State.nextPhase, State.nextPort, hin, hp, hq, hv]

/-- Settles O56: the law of one step, by induction on the run. -/
theorem fifoOverRuns : Obligations.FifoOverRuns := by
  intro r n
  induction n with
  | zero => exact fun s _ _ => ⟨[], [], s, rfl, by simp⟩
  | succ n ih =>
    intro s h hrun
    obtain ⟨hd, hquiet, hrest⟩ := hrun
    obtain ⟨t, ht, hkept, heffect⟩ := ringLinearises r s h hd
    rw [ht] at hrest
    obtain ⟨ins, outs, u, hu, hqueue⟩ := ih t hkept hrest
    refine ⟨s.appended ++ ins, s.taken ++ outs, u, by simp [ringHistory, ht, hu], ?_⟩
    calc s.queue ++ (s.appended ++ ins) = (s.queue ++ s.appended) ++ ins := (List.append_assoc ..).symm
      _ = s.taken ++ (t.queue ++ ins) := by rw [queue_step h heffect hquiet, List.append_assoc]
      _ = (s.taken ++ outs) ++ u.queue := by rw [hqueue, List.append_assoc]

end Sys2Proof.Machine
end

section
/-! RB.SIZE issued by the producer or the consumer (42_ringbuffer.md R180, R189): who moves which index, and what the
operation's two loads leave behind whatever the other agents do in between. -/

namespace Sys2Proof.Machine

/-! ## Who moves which index -/

section Indices

variable {s t : State}

/-- A micro-step outside RB.CLEAR moves the write index at P4 only and the read index at C4 only. -/
theorem exec_indices {o : Opc} (hwf : s.wf = true) (ho : s.me.phase.opc = some o)
    (hx : exec (o.instr s.me.cmd) s = .next t) (hclear : s.me.phase.clearing = false) :
    (s.me.phase ≠ .pushP4 → t.writeIndex = s.writeIndex) ∧
      (s.me.phase ≠ .popC4 ∧ s.me.phase ≠ .poptC4 → t.readIndex = s.readIndex) := by
  by_cases hstores : s.me.phase ∈ ringStores
  · have hcases : s.me.phase = .pushP3 ∨ s.me.phase = .pushP4 ∨ s.me.phase = .popC4 ∨ s.me.phase = .poptC4 := by
      cases hp : s.me.phase <;> simp_all [ringStores, Phase.clearing, Phase.opc]
    obtain ⟨-, -, -, -, -, htw, -⟩ := State.me_in_flight hwf ho
    rcases hcases with hp | hp | hp | hp <;> rw [hp] at ho <;> cases ho
    · cases (exec_rbPush_of_pushP3 _ hp htw).symm.trans hx
      exact ⟨fun _ => rfl, fun _ => rfl⟩
    · cases (exec_rbPush_of_pushP4 _ hp).symm.trans hx
      exact ⟨fun h => absurd hp h, fun _ => rfl⟩
    · cases (exec_rbPop_of_popC4 hp).symm.trans hx
      exact ⟨fun _ => rfl, fun h => absurd hp h.1⟩
    · cases (exec_rbPopt_of_poptC4 _ hp).symm.trans hx
      exact ⟨fun _ => rfl, fun h => absurd hp h.2⟩
  · obtain ⟨-, ⟨hw, hr⟩, -⟩ := exec_ringSame hwf hx hstores
    exact ⟨fun _ => hw, fun _ => hr⟩

/-- No step changes the parameters (log 1). -/
theorem step_params (hx : step s = .next t) : t.params = s.params := by
  rcases step_cases hx with ⟨-, rfl⟩ | ⟨-, rfl⟩ | ⟨p, m, -, hs⟩ | ⟨p, b, -, hs⟩
  · simp
  · simp
  · obtain ⟨-, ⟨-, rfl⟩ | ⟨-, rfl⟩⟩ := issueStep_cases hs <;> simp
  · obtain ⟨-, ⟨-, rfl⟩ | ⟨-, rfl⟩ | ⟨i, -, -, -, hi⟩⟩ := microStep_cases hs
    · simp
    · simp
    · simpa using (exec_elsewhere hi).params_eq

/-- A step outside an emptying moves the write index at P4 only and the read index at C4 only. -/
theorem step_indices (hwf : s.wf = true) (hx : step s = .next t) (hquiet : s.emptying = false) :
    (s.nextPhase ≠ .pushP4 → t.writeIndex = s.writeIndex) ∧
      (s.nextPhase ≠ .popC4 ∧ s.nextPhase ≠ .poptC4 → t.readIndex = s.readIndex) := by
  rcases step_cases hx with ⟨-, rfl⟩ | ⟨hin, -⟩ | ⟨p, m, -, hs⟩ | ⟨p, b, hin, hs⟩
  · simp
  · simp [State.emptying, hin] at hquiet
  · obtain ⟨-, ⟨-, rfl⟩ | ⟨-, rfl⟩⟩ := issueStep_cases hs <;> simp
  · obtain ⟨-, ⟨-, rfl⟩ | ⟨-, rfl⟩ | ⟨i, hi, hr, -, -⟩⟩ := microStep_cases hs
    · simp
    · simp
    · rw [State.begin_port] at hi hr
      obtain ⟨o, ho⟩ := opc_of_busy hi hr
      have hnext : s.nextPhase = (s.port p).phase := by simp [State.nextPhase, hin]
      have hclear : (s.port p).phase.clearing = false := by
        rw [State.emptying, hnext, Bool.or_eq_false_iff] at hquiet
        exact hquiet.2
      rw [hnext]
      simpa using exec_indices (s := s.begin.turn p b) (State.turn_wf (State.begin_wf hwf) p b) (by simpa using ho)
        (by simpa using step_turn hx hin ho) (by simpa using hclear)

end Indices

/-! ## The two loads -/

section Size

variable {s t : State} {p : Nat} (hwf : s.wf = true) (hx : step s = .next t)

include hwf hx

/-- The write index loaded first. -/
theorem size_loads_write_first (hin : s.nextInput = .micro p false) (hp : (s.port p).phase = .sizeQ) :
    (t.port p).phase = .sizeQ2 ∧ (t.port p).tW = s.writeIndex := by
  obtain ⟨-, -, hw, -⟩ := State.wf_iff.1 hwf
  have he := step_turn hx hin (by rw [hp]; rfl)
  cases (exec_rbSize_write_first (s := s.begin.turn p false) (by simpa using hp) rfl (by simpa using hw)).symm.trans he
  have hlen : p < s.begin.ports.length := State.lt_length_of_busy (by simp [hp])
  rw [State.port_updMe _ _ hlen, if_pos (State.turn_active ..).symm]
  exact ⟨rfl, State.begin_writeIndex s⟩

/-- The read index loaded first. -/
theorem size_loads_read_first (hin : s.nextInput = .micro p true) (hp : (s.port p).phase = .sizeQ) :
    (t.port p).phase = .sizeQ1 ∧ (t.port p).tR = s.readIndex := by
  obtain ⟨-, -, -, hr, -⟩ := State.wf_iff.1 hwf
  have he := step_turn hx hin (by rw [hp]; rfl)
  cases (exec_rbSize_read_first (s := s.begin.turn p true) (by simpa using hp) rfl (by simpa using hr)).symm.trans he
  have hlen : p < s.begin.ports.length := State.lt_length_of_busy (by simp [hp])
  rw [State.port_updMe _ _ hlen, if_pos (State.turn_active ..).symm]
  exact ⟨rfl, State.begin_readIndex s⟩

omit hwf in
/-- A busy port waits for its turn with its registers as they are. -/
theorem kept_or_turn {o : Opc} (hrst : s.nextInput ≠ .rst) (ho : (s.port p).phase.opc = some o) :
    ((∀ b, s.nextInput ≠ .micro p b) ∧ t.port p = s.port p) ∨
      ∃ b, exec (o.instr (s.port p).cmd) (s.begin.turn p b) = .next t := by
  by_cases hown : ∃ b, s.nextInput = .micro p b
  · obtain ⟨b, hin⟩ := hown
    exact .inr ⟨b, step_turn hx hin ho⟩
  · have hno := not_exists.1 hown
    exact .inl ⟨hno, step_port_kept hx (fun hi => by simp [hi, Phase.opc] at ho) hrst hno⟩

/-- The read index loaded last: the answer is made of the write index loaded before and the read index now. -/
theorem size_loads_read_last (hrst : s.nextInput ≠ .rst) (hp : (s.port p).phase = .sizeQ2) :
    ((∀ b, s.nextInput ≠ .micro p b) ∧ t.port p = s.port p) ∨
      (t.port p).phase = .idle ∧ (t.port p).rspOk = true ∧
        (t.port p).rspData = zextData s.params (ringSize s.params (s.port p).tW s.readIndex) := by
  obtain ⟨-, -, -, hr, -⟩ := State.wf_iff.1 hwf
  refine (kept_or_turn (o := .rbSize) hx hrst (by rw [hp]; rfl)).imp_right fun ⟨b, hturn⟩ => ?_
  obtain ⟨u, hu, -, -, ⟨hphase, -, hok, hdata, -⟩, -⟩ :=
    exec_rbSize_sizeQ2_effect (s := s.begin.turn p b) (by simpa using hp) (by simpa using hr)
  cases hu.symm.trans hturn
  rw [(exec_elsewhere hturn).me_of_turn] at hphase hok hdata
  exact ⟨hphase, hok, by simpa using hdata⟩

/-- The write index loaded last: the answer is made of the read index loaded before and the write index now. -/
theorem size_loads_write_last (hrst : s.nextInput ≠ .rst) (hp : (s.port p).phase = .sizeQ1) :
    ((∀ b, s.nextInput ≠ .micro p b) ∧ t.port p = s.port p) ∨
      (t.port p).phase = .idle ∧ (t.port p).rspOk = true ∧
        (t.port p).rspData = zextData s.params (ringSize s.params s.writeIndex (s.port p).tR) := by
  obtain ⟨-, -, hw, -⟩ := State.wf_iff.1 hwf
  refine (kept_or_turn (o := .rbSize) hx hrst (by rw [hp]; rfl)).imp_right fun ⟨b, hturn⟩ => ?_
  obtain ⟨u, hu, -, -, ⟨hphase, -, hok, hdata, -⟩, -⟩ :=
    exec_rbSize_sizeQ1_effect (s := s.begin.turn p b) (by simpa using hp) (by simpa using hw)
  cases hu.symm.trans hturn
  rw [(exec_elsewhere hturn).me_of_turn] at hphase hok hdata
  exact ⟨hphase, hok, by simpa using hdata⟩

end Size

/-! ## The owners' indices stand still -/

section Owners

variable {r : Roles} {s t : State} (h : RingKept r s) (hx : step s = .next t) (hquiet : s.emptying = false)

include h hx hquiet

/-- Only the producer moves the write index, and not while it counts. -/
theorem writeIndex_stands (hp : (s.port r.producer).phase.opc = some .rbSize) : t.writeIndex = s.writeIndex := by
  refine (step_indices h.wf hx hquiet).1 fun hnext => ?_
  cases hin : s.nextInput with
  | tick => simp [State.nextPhase, hin] at hnext
  | rst => simp [State.nextPhase, hin] at hnext
  | issue q m => simp [State.nextPhase, hin] at hnext
  | micro q b =>
    have hphase : (s.port q).phase = .pushP4 := by simpa [State.nextPhase, hin] using hnext
    rw [← h.push_role q (by rw [hphase]; rfl), hphase] at hp
    cases hp

/-- Only the consumer moves the read index, and not while it counts. -/
theorem readIndex_stands (hc : (s.port r.consumer).phase.opc = some .rbSize) : t.readIndex = s.readIndex := by
  refine (step_indices h.wf hx hquiet).2 (not_or.1 fun hnext => ?_)
  cases hin : s.nextInput with
  | tick => simp [State.nextPhase, hin] at hnext
  | rst => simp [State.nextPhase, hin] at hnext
  | issue q m => simp [State.nextPhase, hin] at hnext
  | micro q b =>
    have hphase : (s.port q).phase = .popC4 ∨ (s.port q).phase = .poptC4 := by
      simpa [State.nextPhase, hin] using hnext
    rw [← h.pop_role q (by rcases hphase with hphase | hphase <;> rw [hphase] <;> rfl)] at hc
    rcases hphase with hphase | hphase <;> rw [hphase] at hc <;> cases hc

end Owners

/-- Settles O57: the counting owner's index stands still, so the value loaded of it stays the index, and the other load
alone fixes the number. -/
theorem sizeExactForOwners : Obligations.SizeExactForOwners := by
  intro r s t h _ hquiet hx p p' c c'
  have hparams := step_params hx
  have hrst : s.nextInput ≠ .rst := fun hin => by simp [State.emptying, hin] at hquiet
  have hwrite := writeIndex_stands h hx hquiet
  have hread := readIndex_stands h hx hquiet
  have opcOf {q : Port} {l : Phase} (hq : q.phase = l) (hl : l.opc = some .rbSize) : q.phase.opc = some .rbSize :=
    hq ▸ hl
  rw [State.length_queue]
  refine ⟨hwrite, hread, fun hin hp => ?_, fun hp htw => ?_, fun b hin hp htw => ?_, fun hin hp => ?_, fun hp => ?_,
    fun hin hc => ?_, fun hc htr => ?_, fun b hin hc htr => ?_, fun hin hc => ?_, fun hc => ?_⟩
  · obtain ⟨hphase, htw⟩ := size_loads_write_first h.wf hx hin hp
    exact ⟨hphase, htw.trans (hwrite (opcOf hp rfl)).symm⟩
  · rcases size_loads_read_last h.wf hx hrst hp with ⟨-, hsame⟩ | ⟨hphase, hok, hdata⟩
    · exact .inl ⟨(congrArg Port.phase hsame).trans hp, (congrArg Port.tW hsame).trans
        (htw.trans (hwrite (opcOf hp rfl)).symm)⟩
    · exact .inr ⟨hphase, hok, htw ▸ hdata⟩
  · rcases size_loads_read_last h.wf hx hrst hp with ⟨hno, -⟩ | ⟨hphase, -, hdata⟩
    · exact absurd hin (hno b)
    · exact ⟨hphase, htw ▸ hdata⟩
  · obtain ⟨hphase, htr⟩ := size_loads_read_first h.wf hx hin hp
    exact ⟨hphase, by rw [hparams, hwrite (opcOf hp rfl), htr]⟩
  · rcases size_loads_write_last h.wf hx hrst hp with ⟨-, hsame⟩ | hdone
    · exact .inl ⟨(congrArg Port.phase hsame).trans hp, by
        rw [hparams, hwrite (opcOf hp rfl)]
        exact congrArg (fun q => ringSize s.params s.writeIndex q.tR) hsame⟩
    · exact .inr hdone
  · obtain ⟨hphase, htr⟩ := size_loads_read_first h.wf hx hin hc
    exact ⟨hphase, htr.trans (hread (opcOf hc rfl)).symm⟩
  · rcases size_loads_write_last h.wf hx hrst hc with ⟨-, hsame⟩ | ⟨hphase, hok, hdata⟩
    · exact .inl ⟨(congrArg Port.phase hsame).trans hc, (congrArg Port.tR hsame).trans
        (htr.trans (hread (opcOf hc rfl)).symm)⟩
    · exact .inr ⟨hphase, hok, htr ▸ hdata⟩
  · rcases size_loads_write_last h.wf hx hrst hc with ⟨hno, -⟩ | ⟨hphase, -, hdata⟩
    · exact absurd hin (hno b)
    · exact ⟨hphase, htr ▸ hdata⟩
  · obtain ⟨hphase, htw⟩ := size_loads_write_first h.wf hx hin hc
    exact ⟨hphase, by rw [hparams, hread (opcOf hc rfl), htw]⟩
  · rcases size_loads_read_last h.wf hx hrst hc with ⟨-, hsame⟩ | hdone
    · exact .inl ⟨(congrArg Port.phase hsame).trans hc, by
        rw [hparams, hread (opcOf hc rfl)]
        exact congrArg (fun q => ringSize s.params q.tW s.readIndex) hsame⟩
    · exact .inr hdone

end Sys2Proof.Machine
end

section
/-! The yield micro-steps W3 of NTF.WAIT and T2 of RB.POPT (60_exceptions.md R239). -/

namespace Sys2Proof.Machine

/-- Going to a label is a write of one register, the phase of the port whose turn it is (00_scope.md R9). -/
theorem State.goto_eq_setPort (s : State) (l : Phase) : s.goto l = s.setPort s.active { s.me with phase := l } := rfl

/-- Settles O19: the yield itself is the identity, so either label's micro-step is the `goto` that follows it. -/
theorem yieldMovesPhaseOnly : Obligations.YieldMovesPhaseOnly := by
  refine fun s => ⟨fun f d hW3 => ?_, fun d hT2 => ?_⟩
  · rw [exec_ntfWait_of_waitW3 f d hW3, State.goto_eq_setPort]
  · rw [exec_rbPopt_of_poptT2 d hT2, State.goto_eq_setPort]

end Sys2Proof.Machine
end

section
/-! The disciplines of the notifier, the deadline and the interrupt contexts, port by port: what a step can do to one
port, and that each of these outcomes keeps the port's disciplines (70_reset_and_hazards.md R271, R278, R279). -/

namespace Sys2Proof.Machine

/-! ## One port in a step -/

/-- DL.EXPIRED has one micro-step, which ends it (40_deadline.md R125). -/
theorem exec_ends_dlExpired {i : Instr} {s t : State} (hp : s.me.phase = .expiredE1) (hx : exec i s = .next t) :
    t.me.phase = .idle := by
  have hopc : i.opc = .dlExpired := by simpa [hp, Phase.opc] using (opc_phase_of_exec hx).symm
  obtain rfl : i = .dlExpired := by cases i <;> simp [Instr.opc] at hopc ⊢
  obtain ⟨u, hu, ⟨hidle, -⟩, -⟩ := exec_dlExpired_effect hp
  rw [hx] at hu
  cases hu
  exact hidle

/-- The port goes on inside its operation, which is not DL.EXPIRED, with the operand its `arg0` latched. -/
def GoesOn (q q' : Port) : Prop := q'.phase.opc = q.phase.opc ∧ q.phase ≠ .expiredE1 ∧ q'.arg0 = q.arg0

/-- The own port of a micro-step ends its operation or goes on inside it. -/
theorem exec_ends_or_goesOn {i : Instr} {s t : State} (hwf : s.wf = true) (hx : exec i s = .next t) :
    t.me.phase = .idle ∨ GoesOn s.me t.me := by
  obtain ⟨-, ⟨-, harg, -⟩, -⟩ := exec_elsewhere hx
  by_cases hp : s.me.phase = .expiredE1
  · exact .inl (exec_ends_dlExpired hp hx)
  · exact (exec_opc_kept hwf hx).imp_right fun hopc => ⟨hopc, hp, harg⟩

/-- All a turn of some port can do to port `p`. -/
theorem microStep_port_cases {s t : State} {k : Nat} {b : Bool} (hwf : s.wf = true) (hx : microStep k b s = .next t)
    (p : Nat) : t.port p = s.port p ∨ (t.port p).phase = .idle ∨ GoesOn (s.port p) (t.port p) := by
  obtain ⟨-, ⟨-, rfl⟩ | ⟨hr, rfl⟩ | ⟨i, -, -, -, hi⟩⟩ := microStep_cases hx
  · exact .inl rfl
  · by_cases hpk : p = k
    · subst hpk
      have hlen : p < s.ports.length := State.lt_length_of_busy (by rw [hr]; decide)
      refine .inr (.inl ?_)
      rw [State.port_complete _ _ _ _ hlen, if_pos (State.turn_active s p b).symm]
      rfl
    · exact .inl (State.port_complete_ne _ _ _ hpk)
  · have he := exec_elsewhere hi
    by_cases hpk : p = k
    · subst hpk
      rw [← he.me_of_turn]
      exact .inr (exec_ends_or_goesOn (State.turn_wf hwf p b) hi)
    · exact .inl (he.1 p hpk)

/-- All a step can do to port `p`: leave it alone, end its operation, go on inside it, or latch a command on it. -/
theorem step_port_cases {s t : State} (hwf : s.wf = true) (hx : step s = .next t) (p : Nat) :
    t.port p = s.port p ∨ (t.port p).phase = .idle ∨ GoesOn (s.port p) (t.port p) ∨
      ∃ m, s.nextInput = .issue p m ∧ (s.port p).phase = .idle ∧ t.port p = (s.port p).latch s.begin.params m := by
  rcases step_cases hx with ⟨-, rfl⟩ | ⟨-, rfl⟩ | ⟨k, m, hin, hs⟩ | ⟨k, b, -, hs⟩
  · exact .inl (State.begin_port s p)
  · exact .inr (.inl (hwReset_port_idle _ p))
  · obtain ⟨hk, ⟨hidle, rfl⟩ | ⟨-, rfl⟩⟩ := issueStep_cases hs
    · by_cases hpk : p = k
      · subst hpk
        obtain ⟨-, hlen, -⟩ := State.wf_iff.1 (State.begin_wf hwf)
        rw [State.port_setPort_same _ (hlen ▸ hk), State.begin_port]
        exact .inr (.inr (.inr ⟨m, hin, State.begin_port s p ▸ hidle, rfl⟩))
      · exact .inl ((State.port_setPort_ne _ hpk).trans (State.begin_port s p))
    · exact .inl (State.begin_port s p)
  · have hport := microStep_port_cases (State.begin_wf hwf) hs p
    rw [State.begin_port] at hport
    exact hport.imp_right (Or.imp_right .inl)

/-! ## The disciplines of one port -/

/-- What `RolesKept` says of the registers `q` of port `p`. -/
structure PortRolesKept (r : Roles) (p : Nat) (q : Port) : Prop where
  waiter : q.phase.opc = some .ntfWait ∨ q.phase.opc = some .ntfReset → p = r.owner
  created : q.phase = .expiredE1 → q.dlCreated = true
  interrupt : p ∈ r.interrupts → q.phase.opc ≠ some .ntfWait ∧ (q.phase.opc = some .rbPopt → q.arg0 = 0)

theorem rolesKept_iff_ports {r : Roles} {s : State} : RolesKept r s ↔ ∀ p, PortRolesKept r p (s.port p) :=
  ⟨fun h p => ⟨h.waiter p, h.created p, h.interrupt p⟩,
    fun h => ⟨fun p => (h p).waiter, fun p => (h p).created, fun p => (h p).interrupt⟩⟩

section Ports

variable {r : Roles} {p : Nat} {q q' : Port}

theorem PortRolesKept.of_idle (h : q.phase = .idle) : PortRolesKept r p q := by
  constructor <;> simp [h, Phase.opc]

/-- Only E1 is a label of DL.EXPIRED, so a port that goes on does not come to stand at it. -/
theorem PortRolesKept.of_goesOn (h : PortRolesKept r p q) (hgo : GoesOn q q') : PortRolesKept r p q' := by
  obtain ⟨hopc, hnot, harg⟩ := hgo
  refine ⟨hopc ▸ h.waiter, fun hp => ?_, ?_⟩
  · have hE1 : q.phase ∈ opcLabels .dlExpired := mem_opcLabels (by rw [← hopc, hp]; rfl)
    exact absurd (by simpa [opcLabels] using hE1) hnot
  · rw [hopc, harg]
    exact h.interrupt

/-- What the disciplines say of a command an idle port latches (70_reset_and_hazards.md R271, R278, R279). -/
theorem issue_waitDisciplined {s : State} {m : Cmd} (hd : s.waitDisciplined r = true)
    (hin : s.nextInput = .issue p m) (hidle : (s.port p).phase = .idle) {o : Opc} (ho : Opc.ofByte m.op = some o) :
    waiterOk r (p, o.instr m) = true ∧ deadlineOk s (p, o.instr m) = true ∧ interruptOk r (p, o.instr m) = true := by
  have hdec : decode? m = some (o.instr m) := by simp [decode?, decode_of_ofByte ho, Except.toOption]
  simpa [State.waitDisciplined, hin, issued, State.cmdReady, hidle, hdec, and_assoc] using hd

/-- A port that latches a command of a disciplined issue keeps its disciplines. -/
theorem PortRolesKept.of_latch {s : State} {m : Cmd} (c : Params) (hd : s.waitDisciplined r = true)
    (hin : s.nextInput = .issue p m) (hidle : (s.port p).phase = .idle) :
    PortRolesKept r p ((s.port p).latch c m) := by
  have hopc : ((s.port p).latch c m).phase.opc = Opc.ofByte m.op := firstPhase_opc m.op
  have hok (o : Opc) (ho : ((s.port p).latch c m).phase.opc = some o) :=
    issue_waitDisciplined hd hin hidle (hopc.symm.trans ho)
  refine ⟨fun hp => ?_, fun hp => ?_, fun hirq => ⟨fun hp => ?_, fun hp => ?_⟩⟩
  · rcases hp with hp | hp <;> simpa [waiterOk, Opc.instr] using (hok _ hp).1
  · exact (hok .dlExpired (by rw [hp]; rfl)).2.1
  · have hno : interruptOk r (p, .ntfWait m.arg0 m.arg1) = true := (hok .ntfWait hp).2.2
    simp [interruptOk, hirq] at hno
  · have hzero : interruptOk r (p, .rbPopt m.arg0) = true := (hok .rbPopt hp).2.2
    simpa [interruptOk, hirq, Port.latch] using hzero

end Ports

/-- Settles O58: the disciplines speak of one port at a time, and each thing a step can do to a port keeps them. -/
theorem rolesKeptByStep : Obligations.RolesKeptByStep := by
  intro r s t hwf h hd hx
  rw [rolesKept_iff_ports] at h ⊢
  intro p
  rcases step_port_cases hwf hx p with hsame | hidle | hgo | ⟨m, hin, hidle, hlatch⟩
  · exact hsame ▸ h p
  · exact .of_idle hidle
  · exact (h p).of_goesOn hgo
  · exact hlatch ▸ .of_latch _ hd hin hidle

end Sys2Proof.Machine
end

section
/-! The well-formed state at every step (10_state.md R35), and the reset state (10_state.md R40). -/

namespace Sys2Proof.Machine

/-- Settles O50: a well-formed state takes its step, and the step keeps it well formed. -/
theorem wellFormedStepsForever : Obligations.WellFormedStepsForever := by
  intro s hwf
  obtain ⟨t, ht⟩ := step_goes_on hwf
  exact ⟨t, ht, step_wf hwf ht⟩

/-! ## The reset state -/

namespace State

variable (c : Params) (tick : Word)

/-- Every port is reset, those the block does not have among them. -/
@[simp] theorem resetAt_port (p : Nat) : (resetAt c tick).port p = Port.reset := by
  simp only [port, resetAt, List.getD, List.getElem?_replicate]
  split <;> rfl

theorem resetAt_queue : (resetAt c tick).queue = [] := queue_of_indices_eq rfl

end State

theorem Port.reset_wf (c : Params) : Port.reset.wf c = true :=
  Port.wf_iff.2 ⟨.inl rfl, Nat.two_pow_pos _, Nat.two_pow_pos _, Nat.two_pow_pos _, Nat.succ_pos _, Nat.succ_pos _⟩

/-- The reset of a block with legal parameters is well formed. -/
theorem State.resetAt_wf {c : Params} (tick : Word) (h : c.ok = true) : (State.resetAt c tick).wf = true := by
  refine State.wf_iff.2 ⟨h, List.length_replicate, Nat.succ_pos _, Nat.succ_pos _, rfl, rfl, fun q hq => ?_,
    fun i hi => absurd hi List.not_mem_nil, by simp [State.resetAt]⟩
  rw [List.eq_of_mem_replicate hq]
  exact Port.reset_wf c

/-- After reset no operation is in flight and no slot is live, so nothing is claimed of the ring. -/
theorem resetAt_ringKept {c : Params} {r : Roles} (tick : Word) (h : c.ok = true) (hr : r.producer ≠ r.consumer) :
    RingKept r (State.resetAt c tick) := by
  have hidle : ∀ p, ((State.resetAt c tick).port p).phase = .idle := fun p => by rw [State.resetAt_port]; rfl
  refine .of_parts (State.resetAt_wf tick h) hr ⟨fun p hp => ?_, fun p hp => ?_, fun p q hp => ?_⟩
    ⟨.of_indices_eq rfl, fun p => knows_of_idle (hidle p)⟩
  all_goals
    rw [hidle p] at hp
    cases hp

theorem resetAt_rolesKept (c : Params) (r : Roles) (tick : Word) : RolesKept r (State.resetAt c tick) :=
  rolesKept_iff_ports.2 fun p => .of_idle (by rw [State.resetAt_port]; rfl)

/-- Settles O48: the values are those `State.resetAt` names. -/
theorem resetStateValues : Obligations.ResetStateValues :=
  ⟨fun c tick => ⟨rfl, rfl, rfl, rfl, rfl, State.resetAt_queue c tick, List.length_replicate, Memory.read_nil,
    fun p => by rw [State.resetAt_port]; exact ⟨rfl, rfl⟩⟩, rfl⟩

/-- Settles O49: legal parameters make the state well formed; the disciplines speak of operations in flight only. -/
theorem resetMeetsInvariants : Obligations.ResetMeetsInvariants := fun c tick r hc hr =>
  ⟨State.resetAt_wf tick hc, resetAt_ringKept tick hc hr, resetAt_rolesKept c r tick⟩

end Sys2Proof.Machine
end

section
/-! The statements about the decoder, the width of results and the deadline evaluator (30_encoding.md R93, 20_memory.md
R62, 40_deadline.md R120, R121, R127). -/

namespace Sys2Proof.Machine

/-- Settles O4: five bytes of the table, computed. -/
theorem tableBytesDecode : Obligations.TableBytesDecode := by
  unfold Obligations.TableBytesDecode
  decide

/-- Settles O6: both branches of the extension are of `DATA_W` bits, and the first one keeps the value. -/
theorem resultsZeroExtend : Obligations.ResultsZeroExtend := fun c v => ⟨zextData_lt c v, fun hv => if_pos hv⟩

/-- Settles O7: adding the sentinel is subtracting 1. -/
theorem dlNewAddsModulo : Obligations.DlNewAddsModulo := by
  refine ⟨fun now d => ⟨dlNew_target_toNat now d, dlNew_unlimited_iff⟩, fun now => ?_, by decide⟩
  exact (BitVec.sub_eq_add_neg now 1).symm

/-- A word whose signed reading is not negative lies in the lower half (40_deadline.md R121). -/
theorem toInt_nonneg_iff {v : Word} : 0 ≤ v.toInt ↔ v.toNat < 2 ^ 31 := by
  rw [BitVec.toInt_pos_iff]
  omega

/-- Bit 31 of a word is its sign. -/
theorem getLsbD_31_eq_false_iff {v : Word} : v.getLsbD 31 = false ↔ v.toNat < 2 ^ 31 := by
  rw [← BitVec.msb_eq_getLsbD_last, BitVec.msb_eq_false_iff_two_mul_lt]
  omega

/-- Settles O8: all three forms say that the difference lies in the lower half of the words. -/
theorem dlExpiredSignedTest : Obligations.DlExpiredSignedTest := by
  refine ⟨fun dl now => ⟨fun hunl => dlExpired_of_unlimited hunl now, fun hlim => ?_⟩, by decide, by decide⟩
  have hexp := dlExpired_iff_of_limited hlim (now := now)
  exact ⟨hexp.trans toInt_nonneg_iff.symm, hexp, hexp.trans getLsbD_31_eq_false_iff.symm⟩

/-- Before the first DL.NEW since reset `DL[p]` reads as a free deadline (40_deadline.md R127, log 7). -/
theorem readDl_of_uncreated {s : State} (h : s.me.dlCreated = false) : s.readDl s.active =
    ⟨(Config.freeDeadline s.epoch s.active).1, (Config.freeDeadline s.epoch s.active).2⟩ :=
  if_neg (Bool.eq_false_iff.1 h)

/-- Settles O14: E1 does the same whatever deadline it reads; here that is the free one. -/
theorem dlExpiredUncreatedIsFree : Obligations.DlExpiredUncreatedIsFree := by
  intro s hphase hfree
  rw [← readDl_of_uncreated hfree]
  exact exec_dlExpired_effect hphase

end Sys2Proof.Machine
end

section
/-! The statements about the size of the ring and the uninterrupted push and pop (10_state.md R29, 42_ringbuffer.md
R176, R177). -/

namespace Sys2Proof.Machine

/-- The size by the formula of 10_state.md R29, in natural numbers. -/
theorem ringSize_eq_mod {c : Params} {w r : Nat} (hw : w < c.slots) (hr : r < c.slots) :
    ringSize c w r = (w + c.slots - r) % c.slots := by
  rw [ringSize_eq_ite hw hr, mod_slots_eq_ite (by omega)]
  split_ifs <;> omega

theorem ringSize_le_capacity {c : Params} {w r : Nat} (hw : w < c.slots) (hr : r < c.slots) :
    ringSize c w r ≤ c.capacity :=
  Nat.le_of_lt_succ (ringSize_lt hw hr)

/-- Settles O28: the laws of the size, one lemma each. -/
theorem sizeCountsElements : Obligations.SizeCountsElements := by
  intro c w r hw hr
  have hempty : ringEmpty w r = true ↔ w = r := beq_iff_eq
  exact ⟨hempty, beq_iff_eq, ringSize_eq_mod hw hr, ringSize_le_capacity hw hr,
    (ringSize_eq_zero_iff hw hr).trans hempty.symm, (ringFull_iff hw hr).symm, ringSize_nextIdx_write hw hr,
    fun hne => ringSize_nextIdx_read hw hr (beq_eq_false_iff_ne.1 hne)⟩

/-- Settles O30: P1 and P2 change nothing shared and find room at the write index; P3 writes that slot and P4 stores the
index after it. -/
theorem pushAppends : Obligations.PushAppends := by
  intro s v hwf hv hp hroom
  obtain ⟨-, -, hw, hr, -⟩ := State.wf_iff.1 hwf
  have hfull := State.ringFull_eq_false_of_room hw hr hroom
  have hspace : (s.writeIndex + 1) % s.params.slots ≠ s.readIndex := by simpa [ringFull, nextIdx] using hfull
  obtain ⟨t₁, h₁, htw₁, hp₁, -, -, -, -, he₁, hs₁, -⟩ := exec_rbPush_pushP1_effect v hp hw
  obtain ⟨-, hri₁⟩ := hs₁.indices
  obtain ⟨t₂, h₂, -, htw₂, -, -, hgo, -, -, he₂, hs₂, -⟩ :=
    exec_rbPush_pushP2_effect v hp₁ (by rwa [hri₁, he₁.params_eq])
  obtain ⟨hp₂, -⟩ := hgo (by rwa [htw₁, hri₁, he₁.params_eq])
  have he := he₁.trans he₂
  have htw : t₂.me.tW = s.writeIndex := htw₂.trans htw₁
  obtain ⟨hf₂, hi₂, hst₂⟩ := hs₁.trans hs₂
  obtain ⟨-, -, hput, -⟩ := pushMicroSteps.2 t₂ v (by rwa [he.params_eq])
  obtain ⟨t₃, h₃, hslot₃, hslots₃, hp₃, hf₃, ⟨-, hri₃⟩, -, -, ⟨htw₃, -⟩, he₃, -⟩ :=
    hput hp₂ (by rwa [htw, he.params_eq])
  obtain ⟨t, h₄, hwi, hri₄, hdone, hf₄, hst₄, -, -, -, he₄, -⟩ := exec_rbPush_pushP4_effect v hp₃
  rw [htw] at hslot₃ hslots₃
  have hri : t.readIndex = s.readIndex := hri₄.trans (hri₃.trans hi₂.2)
  have hslots : ∀ i, i ≠ s.writeIndex → t.slot i = s.slot i := fun i hi =>
    (hst₄ i).2.trans ((hslots₃ i hi).1.trans (hst₂ i).2)
  have hqueue := State.queue_append (he.trans (he₃.trans he₄)).params_eq hw hr
    (by rw [hwi, htw₃, htw, he₃.params_eq, he.params_eq, nextIdx]) hri hfull hslots
  rw [(hst₄ _).2, hslot₃] at hqueue
  refine ⟨t, ?_, (he.trans he₃).completed hdone, hqueue, hri, hf₄.trans (hf₃.trans hf₂), hslots⟩
  rw [execTimes_succ h₁, execTimes_succ h₂, execTimes_succ h₃, execTimes_succ h₄, execTimes]

/-- Settles O33: a pop of a ring with an element is a `Popped`, whose head is the one element answered. -/
theorem popTakesOldest : Obligations.PopTakesOldest := by
  intro s v rest hwf hp hqueue
  obtain ⟨-, -, hw, hr, -, hrange, -⟩ := State.wf_iff.1 hwf
  have hne : s.writeIndex ≠ s.readIndex := fun h => by simp [State.queue_of_indices_eq h] at hqueue
  obtain ⟨t, ht, hpop⟩ := execTimes_rbPop_of_ne hw hr (State.slot_fits hrange _) hne hp
  obtain ⟨rfl, rfl⟩ := List.cons.inj (hqueue.symm.trans (hpop.queue_eq hw hr hne))
  obtain ⟨hdone, -, -, hwi, hflags, hstore⟩ := hpop
  exact ⟨t, ht, hdone, rfl, hwi, hflags, hstore⟩

end Sys2Proof.Machine
end

section
/-! All a micro-step can do, over all instructions and from any state, well formed or not (30_encoding.md R100): the one
store its label names, and then a change of the own port's registers that goes on to another label or ends the
operation. -/

namespace Sys2Proof.Machine

/-! ## The shape of a micro-step -/

/-- The labels that may come after a label inside its operation. -/
def Phase.successors : Phase → List Phase
  | .waitW0 => [.waitW1]
  | .waitW1 => [.waitW2]
  | .waitW2 => [.waitW3]
  | .waitW3 => [.waitW1]
  | .pushP1 => [.pushP2]
  | .pushP2 => [.pushP3]
  | .pushP3 => [.pushP4]
  | .popC1 => [.popC2]
  | .popC2 => [.popC3]
  | .popC3 => [.popC4]
  | .poptT0 => [.poptC1]
  | .poptC1 => [.poptC2]
  | .poptC2 => [.poptC3, .poptT1]
  | .poptC3 => [.poptC4]
  | .poptT1 => [.poptT2]
  | .poptT2 => [.poptC1]
  | .clearK => [.clearK1, .clearK2]
  | .sizeQ => [.sizeQ1, .sizeQ2]
  | _ => []

/-- The labels at which an operation may end without success (60_exceptions.md R221). -/
def failureLabels : List Phase := [.waitW2, .pushP2, .popC2, .poptT1]

/-- `u` is `s` after at most one store to a shared register, the one the label of the port names. -/
inductive Stored (s : State) : State → Prop
  | nothing : Stored s s
  | noFlags (hp : s.me.phase = .resetZ1) : Stored s (s.storeFlags 0)
  | moreFlags (f : Word) (hp : s.me.phase = .setS1) : Stored s (s.fetchOrFlags f)
  | slot (v : Elem) (hp : s.me.phase = .pushP3) : Stored s (s.storeSlot s.me.tW v)
  | writeIndex (i : Nat) (hp : s.me.phase = .pushP4 ∨ s.me.phase = .clearK ∨ s.me.phase = .clearK1) :
    Stored s (s.storeWriteIndex i)
  | readIndex (i : Nat)
    (hp : s.me.phase = .popC4 ∨ s.me.phase = .poptC4 ∨ s.me.phase = .clearK ∨ s.me.phase = .clearK2) :
    Stored s (s.storeReadIndex i)

/-- The two ways a micro-step can go: on to a successor of the label, or to the end of the operation. Only N1 changes
the Deadline, and only the failure labels answer `ok = 0`. -/
inductive MicroStep (s : State) : State → Prop
  | goesOn {u : State} {f : Port → Port} (hu : Stored s u) (hdl : (f s.me).dl = s.me.dl)
      (hl : (f s.me).phase ∈ s.me.phase.successors) : MicroStep s (u.updMe f)
  | ends {u : State} {f : Port → Port} {ok : Bool} {d : Nat} (hu : Stored s u)
      (hdl : s.me.phase ≠ .newN1 → (f s.me).dl = s.me.dl)
      (hfail : ok = false → s.me.phase ∈ failureLabels ∧ d = 0) : MicroStep s ((u.updMe f).complete false ok d)

/-! ## Updates in a row -/

theorem State.updMe_goto_eq {s : State} (f : Port → Port) (l : Phase) (h : s.active < s.ports.length) :
    (s.updMe f).goto l = s.updMe fun q => { f q with phase := l } := by
  simp [State.goto, State.updMe, State.setPort, State.me, State.port, List.getD, h]

/-- The own port's registers written back. -/
theorem State.updMe_id {s : State} (h : s.active < s.ports.length) : s.updMe id = s := by
  simp [State.updMe, State.setPort, State.me, State.port, List.getD, h]

/-! ## The micro-steps operations share -/

namespace MicroStep

variable {s t : State} {l l' : Phase} (hp : s.me.phase = l)

/-- An end that changes no local of the port. -/
theorem of_complete {u : State} {ok : Bool} {d : Nat} (hlen : u.active < u.ports.length) (hu : Stored s u)
    (hfail : ok = false → s.me.phase ∈ failureLabels ∧ d = 0) : MicroStep s (u.complete false ok d) := by
  rw [← State.updMe_id hlen]
  exact .ends hu (fun _ => rfl) hfail

include hp

/-- An end at a label that stores nothing shared. -/
theorem of_updMe_complete {f : Port → Port} {ok : Bool} {d : Nat}
    (hdl : s.me.phase ≠ .newN1 → (f s.me).dl = s.me.dl) (hfail : ok = false → l ∈ failureLabels ∧ d = 0) :
    MicroStep s ((s.updMe f).complete false ok d) :=
  .ends .nothing hdl (hp ▸ hfail)

variable (hl : l' ∈ l.successors)

include hl

/-- A store and then a jump. -/
theorem of_goto {u : State} (hu : Stored s u) : MicroStep s (u.goto l') :=
  .goesOn (f := fun q => { q with phase := l' }) hu rfl (hp ▸ hl)

/-- A change of the locals that goes on, at a label that stores nothing shared. -/
theorem of_updMe {f : Port → Port} (hdl : (f s.me).dl = s.me.dl) (hf : (f s.me).phase = l') :
    MicroStep s (s.updMe f) :=
  .goesOn .nothing hdl (by rw [hf, hp]; exact hl)

theorem of_updMe_goto {f : Port → Port} (hdl : (f s.me).dl = s.me.dl) : MicroStep s ((s.updMe f).goto l') := by
  have hbusy : l ≠ .idle := by
    rintro rfl
    exact List.not_mem_nil hl
  rw [State.updMe_goto_eq f l' (active_lt_of_phase hp hbusy)]
  exact of_updMe hp hl hdl rfl

theorem of_startDeadline {d : Word} (hx : startDeadline d l' s = .next t) : MicroStep s t := by
  cases hx
  exact of_updMe hp hl rfl rfl

theorem of_checkDeadline (hfail : l ∈ failureLabels) (hx : checkDeadline l' s = .next t) : MicroStep s t := by
  rcases checkDeadline_next.1 hx with ⟨-, rfl⟩ | ⟨-, rfl⟩
  · exact of_updMe_complete hp (fun _ => rfl) fun _ => ⟨hfail, rfl⟩
  · exact of_updMe_goto hp hl rfl

theorem of_popLoadRead (hx : popLoadRead l' s = .next t) : MicroStep s t := by
  obtain ⟨-, hx⟩ := State.loadReadIndex_next.1 hx
  cases hx
  exact of_updMe hp hl rfl rfl

/-- C2 is what it does on an empty ring, or it goes on. -/
theorem of_popLoadWrite {g : State → State} (hg : MicroStep s (g (s.updMe fun q => { q with tW := s.writeIndex })))
    (hx : popLoadWrite l' g s = .next t) : MicroStep s t := by
  obtain ⟨-, ⟨-, rfl⟩ | ⟨-, rfl⟩⟩ := popLoadWrite_next.1 hx
  · exact hg
  · exact of_updMe_goto hp hl rfl

theorem of_popRead (hx : popRead l' s = .next t) : MicroStep s t := by
  obtain ⟨-, hx⟩ := State.memRead_next.1 hx
  cases hx
  exact of_updMe hp hl rfl rfl

end MicroStep

/-! ## The operations -/

section Operations

variable {s t : State}

theorem execNtfWait_microStep {f d : Word} (hx : exec (.ntfWait f d) s = .next t) : MicroStep s t := by
  have hl := mem_opcLabels (opc_phase_of_exec hx)
  simp only [Instr.opc, opcLabels, List.mem_cons, List.not_mem_nil, or_false] at hl
  rcases hl with hp | hp | hp | hp
  · exact .of_startDeadline hp (by decide) (exec_ntfWait_of_waitW0 f d hp ▸ hx)
  · rcases waitLook_next.1 (exec_ntfWait_of_waitW1 f d hp ▸ hx) with ⟨-, rfl⟩ | ⟨-, rfl⟩
    · exact .of_updMe_complete hp (fun _ => rfl) nofun
    · exact .of_updMe_goto hp (by decide) rfl
  · exact .of_checkDeadline hp (by decide) (by decide) (exec_ntfWait_of_waitW2 f d hp ▸ hx)
  · cases (exec_ntfWait_of_waitW3 f d hp).symm.trans hx
    exact .of_goto hp (by decide) .nothing

theorem execRbPush_microStep {v : Elem} (hx : exec (.rbPush v) s = .next t) : MicroStep s t := by
  have hl := mem_opcLabels (opc_phase_of_exec hx)
  simp only [Instr.opc, opcLabels, List.mem_cons, List.not_mem_nil, or_false] at hl
  rcases hl with hp | hp | hp | hp
  · simp only [exec, execRbPush, hp, State.loadWriteIndex_next] at hx
    obtain ⟨-, hx⟩ := hx
    cases hx
    exact .of_updMe (l' := .pushP2) hp (by decide) rfl rfl
  · simp only [exec, execRbPush, hp, State.loadReadIndex_next] at hx
    obtain ⟨-, hx⟩ := hx
    split at hx <;> cases hx
    · exact .of_updMe_complete hp (fun _ => rfl) fun _ => by decide
    · exact .of_updMe_goto hp (by decide) rfl
  · simp only [exec, execRbPush, hp, State.memWrite_next] at hx
    obtain ⟨-, hx⟩ := hx
    cases hx
    exact .of_goto hp (by decide) (.slot v hp)
  · cases (exec_rbPush_of_pushP4 v hp).symm.trans hx
    exact .of_complete (active_lt_of_phase hp (by decide)) (.writeIndex _ (.inl hp)) nofun

theorem popFinish_microStep {l : Phase} (hp : s.me.phase = l) (hl : l = .popC4 ∨ l = .poptC4)
    (hx : popFinish s = .next t) : MicroStep s t := by
  have hbusy : l ≠ .idle := by rcases hl with rfl | rfl <;> decide
  cases hx
  exact .of_complete (active_lt_of_phase hp hbusy) (.readIndex _ (hp ▸ hl.imp_right .inl)) nofun

theorem execRbPop_microStep (hx : exec .rbPop s = .next t) : MicroStep s t := by
  have hl := mem_opcLabels (opc_phase_of_exec hx)
  simp only [Instr.opc, opcLabels, List.mem_cons, List.not_mem_nil, or_false] at hl
  rcases hl with hp | hp | hp | hp
  · exact .of_popLoadRead hp (by decide) (exec_rbPop_of_popC1 hp ▸ hx)
  · refine .of_popLoadWrite hp (by decide) ?_ ((exec_rbPop_of_popC2 hp).symm.trans hx)
    exact .of_updMe_complete hp (fun _ => rfl) fun _ => by decide
  · exact .of_popRead hp (by decide) (exec_rbPop_of_popC3 hp ▸ hx)
  · exact popFinish_microStep hp (.inl rfl) (exec_rbPop_of_popC4 hp ▸ hx)

theorem execRbPopt_microStep {d : Word} (hx : exec (.rbPopt d) s = .next t) : MicroStep s t := by
  have hl := mem_opcLabels (opc_phase_of_exec hx)
  simp only [Instr.opc, opcLabels, List.mem_cons, List.not_mem_nil, or_false] at hl
  rcases hl with hp | hp | hp | hp | hp | hp | hp
  · exact .of_startDeadline hp (by decide) (exec_rbPopt_of_poptT0 d hp ▸ hx)
  · exact .of_popLoadRead hp (by decide) (exec_rbPopt_of_poptC1 d hp ▸ hx)
  · refine .of_popLoadWrite hp (by decide) ?_ ((exec_rbPopt_of_poptC2 d hp).symm.trans hx)
    exact .of_updMe_goto hp (by decide) rfl
  · exact .of_popRead hp (by decide) (exec_rbPopt_of_poptC3 d hp ▸ hx)
  · exact popFinish_microStep hp (.inr rfl) (exec_rbPopt_of_poptC4 d hp ▸ hx)
  · exact .of_checkDeadline hp (by decide) (by decide) (exec_rbPopt_of_poptT1 d hp ▸ hx)
  · cases (exec_rbPopt_of_poptT2 d hp).symm.trans hx
    exact .of_goto hp (by decide) .nothing

theorem execRbClear_microStep (hx : exec .rbClear s = .next t) : MicroStep s t := by
  have hl := mem_opcLabels (opc_phase_of_exec hx)
  simp only [Instr.opc, opcLabels, List.mem_cons, List.not_mem_nil, or_false] at hl
  rcases hl with hp | hp | hp
  · cases hb : s.swap
    · cases (exec_rbClear_write_first hp hb).symm.trans hx
      exact .of_goto hp (by decide) (.writeIndex 0 (.inr (.inl hp)))
    · cases (exec_rbClear_read_first hp hb).symm.trans hx
      exact .of_goto hp (by decide) (.readIndex 0 (.inr (.inr (.inl hp))))
  · cases (exec_rbClear_of_clearK1 hp).symm.trans hx
    exact .of_complete (active_lt_of_phase hp (by decide)) (.writeIndex 0 (.inr (.inr hp))) nofun
  · cases (exec_rbClear_of_clearK2 hp).symm.trans hx
    exact .of_complete (active_lt_of_phase hp (by decide)) (.readIndex 0 (.inr (.inr (.inr hp)))) nofun

theorem execRbSize_microStep (hx : exec .rbSize s = .next t) : MicroStep s t := by
  have hl := mem_opcLabels (opc_phase_of_exec hx)
  simp only [Instr.opc, opcLabels, List.mem_cons, List.not_mem_nil, or_false] at hl
  rcases hl with hp | hp | hp
  · simp only [exec, execRbSize, hp] at hx
    split at hx
    · obtain ⟨-, hx⟩ := State.loadReadIndex_next.1 hx
      cases hx
      exact .of_updMe (l' := .sizeQ1) hp (by decide) rfl rfl
    · obtain ⟨-, hx⟩ := State.loadWriteIndex_next.1 hx
      cases hx
      exact .of_updMe (l' := .sizeQ2) hp (by decide) rfl rfl
  · simp only [exec, execRbSize, hp, State.loadWriteIndex_next] at hx
    obtain ⟨-, hx⟩ := hx
    cases hx
    exact .of_updMe_complete hp (fun _ => rfl) nofun
  · simp only [exec, execRbSize, hp, State.loadReadIndex_next] at hx
    obtain ⟨-, hx⟩ := hx
    cases hx
    exact .of_updMe_complete hp (fun _ => rfl) nofun

/-- Whatever the instruction, a micro-step that goes on has the shape of `MicroStep`. -/
theorem exec_microStep {i : Instr} (hx : exec i s = .next t) : MicroStep s t := by
  have hl := mem_opcLabels (opc_phase_of_exec hx)
  cases i <;> simp only [Instr.opc, opcLabels, List.mem_cons, List.not_mem_nil, or_false] at hl
  case dlNew d =>
    cases (exec_dlNew_of_newN1 d hl).symm.trans hx
    exact .of_updMe_complete hl (fun hne => absurd hl hne) nofun
  case dlExpired =>
    cases (exec_dlExpired_of_expiredE1 hl).symm.trans hx
    exact .of_updMe_complete hl (fun _ => rfl) nofun
  case ntfReset =>
    cases (exec_ntfReset_of_resetZ1 hl).symm.trans hx
    exact .of_complete (active_lt_of_phase hl (by decide)) (.noFlags hl) nofun
  case ntfSet f =>
    cases (exec_ntfSet_of_setS1 f hl).symm.trans hx
    exact .of_complete (active_lt_of_phase hl (by decide)) (.moreFlags f hl) nofun
  case ntfWait f d => exact execNtfWait_microStep hx
  case rbPush v => exact execRbPush_microStep hx
  case rbPop => exact execRbPop_microStep hx
  case rbPopt d => exact execRbPopt_microStep hx
  case rbClear => exact execRbClear_microStep hx
  case rbSize => exact execRbSize_microStep hx
  case rbCap =>
    cases (exec_rbCap_of_capA1 hl).symm.trans hx
    exact .of_complete (active_lt_of_phase hl (by decide)) .nothing nofun

end Operations

end Sys2Proof.Machine
end

section
/-! What follows for every instruction from the shape of its micro-steps: which labels write which register, how an
operation ends, and how far it is from its end (10_state.md R20, 60_exceptions.md R221, 20_memory.md R74). -/

namespace Sys2Proof.Machine

/-! ## Who writes what -/

/-- A micro-step of a port with the registers `q` changes a shared register only at the labels that write it
(10_state.md R21, R25 to R28). -/
def SharedWriters (q : Port) (s t : State) : Prop :=
  (t.raisedFlags ≠ s.raisedFlags → q.phase = .setS1 ∨ q.phase = .resetZ1) ∧
  (t.writeIndex ≠ s.writeIndex → q.phase = .pushP4 ∨ q.phase = .clearK ∨ q.phase = .clearK1) ∧
  (t.readIndex ≠ s.readIndex →
    q.phase = .popC4 ∨ q.phase = .poptC4 ∨ q.phase = .clearK ∨ q.phase = .clearK2) ∧
  ∀ i, Memory.read t.storage i ≠ Memory.read s.storage i → q.phase = .pushP3 ∧ i = q.tW

theorem SharedWriters.of_sharedSame {s t : State} (q : Port) (h : SharedSame s t) : SharedWriters q s t := by
  obtain ⟨hflags, ⟨hw, hr⟩, hstore⟩ := h
  exact ⟨fun hne => absurd hflags hne, fun hne => absurd hw hne, fun hne => absurd hr hne,
    fun i hne => absurd (hstore i).1 hne⟩

/-- The labels whose micro-step stores to a shared register (10_state.md R20). -/
def sharedStores : List Phase := .resetZ1 :: .setS1 :: ringStores

section Shape

variable {s t u : State}

/-- A store is to the one register its label writes. -/
theorem Stored.sharedWriters (h : Stored s u) : SharedWriters s.me s u := by
  cases h with
  | nothing => exact .of_sharedSame _ ⟨rfl, ⟨rfl, rfl⟩, fun _ => ⟨rfl, rfl⟩⟩
  | noFlags hp => simp [SharedWriters, hp]
  | moreFlags f hp => simp [SharedWriters, hp]
  | slot v hp =>
    refine ⟨fun hne => absurd rfl hne, fun hne => absurd rfl hne, fun hne => absurd rfl hne, fun i hne => ⟨hp, ?_⟩⟩
    by_contra hi
    exact hne (Memory.read_write_ne _ _ hi)
  | writeIndex i hp => simp [SharedWriters, hp]
  | readIndex i hp => simp [SharedWriters, hp]

theorem Stored.eq_of_not_mem (h : Stored s u) (hl : s.me.phase ∉ sharedStores) : u = s := by
  cases h with
  | nothing => rfl
  | noFlags hp | moreFlags _ hp | slot _ hp | writeIndex _ hp | readIndex _ hp =>
    exact absurd (by simp only [sharedStores, ringStores, List.mem_cons]; tauto) hl

/-- A store is to no register of a port, and leaves whose turn it is. -/
theorem Stored.ports_active (h : Stored s u) : u.ports = s.ports ∧ u.active = s.active := by
  cases h <;> exact ⟨rfl, rfl⟩

theorem Stored.me_eq (h : Stored s u) : u.me = s.me := by
  obtain ⟨hports, hactive⟩ := h.ports_active
  rw [State.me, State.me, State.port, State.port, hports, hactive]

/-- After the store a micro-step changes nothing shared any more. -/
theorem MicroStep.sharedWriters (h : MicroStep s t) : SharedWriters s.me s t := by
  cases h with
  | goesOn hu _ _ => exact hu.sharedWriters
  | ends hu _ _ => exact hu.sharedWriters

theorem MicroStep.sharedSame (h : MicroStep s t) (hl : s.me.phase ∉ sharedStores) : SharedSame s t := by
  cases h with
  | goesOn hu _ _ =>
    cases hu.eq_of_not_mem hl
    exact updMe_sharedSame ..
  | ends hu _ _ =>
    cases hu.eq_of_not_mem hl
    exact updMe_complete_sharedSame ..

/-! ## The own port -/

variable (hlen : s.active < s.ports.length)

include hlen

/-- Only N1 changes the Deadline of the port (10_state.md R37). -/
theorem MicroStep.dl_eq (h : MicroStep s t) (hp : s.me.phase ≠ .newN1) : t.me.dl = s.me.dl := by
  cases h with
  | @goesOn u f hu hdl _ =>
    obtain ⟨hports, hactive⟩ := hu.ports_active
    rw [State.me_updMe f (by rwa [hports, hactive]), hu.me_eq, hdl]
  | @ends u f ok d hu hdl _ =>
    obtain ⟨hports, hactive⟩ := hu.ports_active
    rw [State.me_updMe_complete _ _ _ (by rwa [hports, hactive]), hu.me_eq, Port.respond, hdl hp]

/-- The port goes on to a successor of its label, or its operation ends with a response, `ok = 0` only at a failure
label (30_encoding.md R101). -/
theorem MicroStep.goes_on_or_ends (h : MicroStep s t) : t.me.phase ∈ s.me.phase.successors ∨
    ∃ ok d, Completed s t false ok d ∧ (ok = false → s.me.phase ∈ failureLabels ∧ d = 0) := by
  cases h with
  | @goesOn u f hu _ hl =>
    obtain ⟨hports, hactive⟩ := hu.ports_active
    rw [State.me_updMe f (by rwa [hports, hactive]), hu.me_eq]
    exact .inl hl
  | @ends u f ok d hu _ hfail =>
    obtain ⟨hports, hactive⟩ := hu.ports_active
    have hdone := updMe_complete_completed (s := u) f false ok d (by rwa [hports, hactive])
    rw [Completed, hactive] at hdone
    exact .inr ⟨ok, d, hdone, hfail⟩

end Shape

theorem idle_not_mem_successors (l : Phase) : .idle ∉ l.successors := by
  cases l <;> decide

/-- A port that performs a micro-step exists. -/
theorem active_lt_of_exec {i : Instr} {s t : State} (hx : exec i s = .next t) : s.active < s.ports.length :=
  State.lt_length_of_busy fun hi => by
    have hopc := opc_phase_of_exec hx
    rw [State.me, hi] at hopc
    cases hopc

/-- A micro-step that leaves its port idle is the end of the operation, with its response. -/
theorem exec_completed_of_idle {i : Instr} {s t : State} (hx : exec i s = .next t) (hi : t.me.phase = .idle) :
    ∃ ok d, Completed s t false ok d ∧ (ok = false → s.me.phase ∈ failureLabels ∧ d = 0) := by
  refine ((exec_microStep hx).goes_on_or_ends (active_lt_of_exec hx)).resolve_left fun hl => ?_
  rw [hi] at hl
  exact idle_not_mem_successors _ hl

/-- Settles O54: an end without success is at a failure label, and those store nothing shared. -/
theorem failuresChangeNothingShared : Obligations.FailuresChangeNothingShared := by
  intro i s t hx hi hfail
  obtain ⟨ok, d, hdone, hlabel⟩ := exec_completed_of_idle hx hi
  have ⟨_, _, hok, _⟩ := hdone
  obtain rfl : ok = false := hok.symm.trans hfail
  obtain ⟨hl, rfl⟩ := hlabel rfl
  have hopc := opc_phase_of_exec hx
  have hnone : s.me.phase ∉ sharedStores := by
    revert hl
    cases s.me.phase <;> decide
  refine ⟨?_, hdone, (exec_microStep hx).sharedSame hnone⟩
  simp only [failureLabels, List.mem_cons, List.not_mem_nil, or_false] at hl
  rcases hl with hp | hp | hp | hp <;> rw [hp] at hopc <;> have ho := (Option.some.inj hopc).symm
  · exact .inl ⟨ho, hp⟩
  · exact .inr (.inl ⟨ho, hp⟩)
  · exact .inr (.inr (.inl ⟨ho, hp⟩))
  · exact .inr (.inr (.inr ⟨ho, hp⟩))

/-! ## The way to the end -/

/-- Every label but the two yields is followed by labels nearer the end. -/
theorem rank_lt_of_successor (l : Phase) (hl : l ≠ .waitW3 ∧ l ≠ .poptT2) : ∀ l' ∈ l.successors, l'.rank < l.rank := by
  revert hl
  cases l <;> decide

theorem rank_le_four (l : Phase) (hl : l.opc ≠ some .ntfWait ∧ l.opc ≠ some .rbPopt) : l.rank ≤ 4 := by
  revert hl
  cases l <;> decide

theorem rank_pos {l : Phase} (hl : l ≠ .idle) : 0 < l.rank := by
  revert hl
  cases l <;> decide

theorem opc_of_not_mayHold {i : Instr} (h : mayHold i = false) : i.opc ≠ .ntfWait ∧ i.opc ≠ .rbPopt := by
  cases i <;> simp_all [mayHold, Instr.opc]

/-- Outside the two operations that may hold a port, every micro-step comes nearer the end. -/
theorem exec_rank_lt {i : Instr} {s t : State} (hx : exec i s = .next t) (hm : mayHold i = false) :
    t.me.phase.rank < s.me.phase.rank := by
  have hlen := active_lt_of_exec hx
  have hopc := opc_phase_of_exec hx
  obtain ⟨hwait, hpopt⟩ := opc_of_not_mayHold hm
  rcases (exec_microStep hx).goes_on_or_ends hlen with hl | ⟨ok, d, ⟨hidle, -⟩, -⟩
  · refine rank_lt_of_successor _ ⟨fun hp => ?_, fun hp => ?_⟩ _ hl
    · rw [hp] at hopc
      exact hwait (Option.some.inj hopc).symm
    · rw [hp] at hopc
      exact hpopt (Option.some.inj hopc).symm
  · rw [hidle]
    refine rank_pos fun hp => ?_
    rw [hp] at hopc
    cases hopc

/-- Settles O51: in a well-formed state the four indices are in range, so the micro-step goes on; its label is at most
four from the end, and the next one is nearer. -/
theorem microStepsEnabledAndBounded : Obligations.MicroStepsEnabledAndBounded := by
  intro s i hwf hopc
  obtain ⟨-, -, hw, hr, -⟩ := State.wf_iff.1 hwf
  obtain ⟨-, -, -, -, -, htw, htr⟩ := State.me_in_flight hwf hopc
  obtain ⟨t, ht⟩ := exec_goes_on hopc hw hr htw htr
  refine ⟨t, ht, hopc ▸ exec_opc_kept hwf ht, fun hm => ⟨rank_le_four _ ?_, exec_rank_lt ht hm⟩⟩
  simpa [hopc] using opc_of_not_mayHold hm

end Sys2Proof.Machine
end

section
/-! The statements over all steps of the machine: inputs that change nothing, the reset input, who writes which
register, and the other ports (30_encoding.md R90, 70_reset_and_hazards.md R260, 10_state.md R20, 60_exceptions.md
R238). -/

namespace Sys2Proof.Machine

/-! ## Inputs and micro-steps that are refused or change nothing -/

theorem issueStep_of_busy {s : State} {p : Nat} (m : Cmd) (hp : p < s.params.nports)
    (hb : (s.port p).phase ≠ .idle) : issueStep p m s = .next s := by
  simp [issueStep, hp, State.cmdReady, hb]

theorem microStep_of_idle {s : State} {p : Nat} (b : Bool) (hp : p < s.params.nports)
    (hi : (s.port p).phase = .idle) : microStep p b s = .next s := by
  simp [microStep, hp, hi]

theorem issueStep_of_absent {s : State} {p : Nat} (m : Cmd) (hp : s.params.nports ≤ p) :
    issueStep p m s = .fault .noSuchPort :=
  if_neg (Nat.not_lt.2 hp)

theorem microStep_of_absent {s : State} {p : Nat} (b : Bool) (hp : s.params.nports ≤ p) :
    microStep p b s = .fault .noSuchPort :=
  if_neg (Nat.not_lt.2 hp)

/-- Taking up an input touches nothing shared. -/
theorem begin_sharedSame (s : State) : SharedSame s s.begin := by
  simp [SharedSame, FlagsSame, IndicesSame, StorageSame]

/-- Settles O43: either step on a disabled input answers the state that has taken the input up. -/
theorem disabledInputsChangeNothing : Obligations.DisabledInputsChangeNothing := by
  refine fun s p => ⟨fun hp => ⟨fun m hin hb => ?_, fun b hin hi => ?_⟩,
    fun hp => ⟨fun m hin => ?_, fun b hin => ?_⟩, State.begin_tick s, begin_sharedSame s, State.begin_ports s,
    State.begin_params s, State.begin_rspValid s⟩
  · rw [step_of_issue hin]
    exact issueStep_of_busy m (by simpa using hp) (by simpa using hb)
  · rw [step_of_micro hin]
    exact microStep_of_idle b (by simpa using hp) (by simpa using hi)
  · rw [step_of_issue hin]
    exact issueStep_of_absent m (by simpa using hp)
  · rw [step_of_micro hin]
    exact microStep_of_absent b (by simpa using hp)

/-- Settles O52: `exec_refused`. -/
theorem notInFlightRefused : Obligations.NotInFlightRefused := fun _ _ => exec_refused

theorem memRead_of_outside {s : State} {i : Nat} (k : Elem → Out) (h : s.params.slots ≤ i) :
    s.memRead i k = .refused .indexOutOfRange :=
  if_neg (Nat.not_lt.2 h)

theorem memWrite_of_outside {s : State} {i : Nat} (v : Elem) (k : State → Out) (h : s.params.slots ≤ i) :
    s.memWrite i v k = .refused .indexOutOfRange :=
  if_neg (Nat.not_lt.2 h)

/-- Settles O53: P3 is a write of the slot at `t.w`, C3 a read of the one at `t.r`. -/
theorem indexOutsideStorageRefused : Obligations.IndexOutsideStorageRefused := by
  refine fun s => ⟨fun v hp hout => ?_, fun hp hout => ?_, fun d hp hout => ?_⟩
  · simp only [exec, execRbPush, hp, memWrite_of_outside _ _ hout]
  · rw [exec_rbPop_of_popC3 hp, popRead, memRead_of_outside _ hout]
  · rw [exec_rbPopt_of_poptC3 d hp, popRead, memRead_of_outside _ hout]

/-! ## The reset input -/

theorem step_of_rst {s : State} (h : s.nextInput = .rst) : step s = .next s.begin.hwReset := by
  rw [step, h, inputStep]

theorem hwReset_port (s : State) (p : Nat) : s.hwReset.port p = Port.reset :=
  State.resetAt_port s.params s.tick p

/-- A turn that leaves its port idle, if the port was busy, pulses the port's `rsp_valid`. -/
theorem microStep_rspValid {s t : State} {p : Nat} {b : Bool} (hx : microStep p b s = .next t)
    (hb : (s.port p).phase ≠ .idle) (hi : (t.port p).phase = .idle) : t.rspValid = some p := by
  obtain ⟨-, ⟨hidle, -⟩ | ⟨-, rfl⟩ | ⟨i, -, -, -, hx⟩⟩ := microStep_cases hx
  · exact absurd hidle hb
  · rfl
  · rw [← (exec_elsewhere hx).me_of_turn] at hi
    obtain ⟨ok, d, ⟨-, -, -, -, hrsp⟩, -⟩ := exec_completed_of_idle hx hi
    exact hrsp

/-- Settles O47: of the steps but the reset only its own turn changes a busy port; the reset is computed. -/
theorem hardwareResetAbandons : Obligations.HardwareResetAbandons := by
  refine ⟨fun s t p hx hb hi => ?_, fun s hin => ⟨_, step_of_rst hin, by simp, by simp, rfl, rfl, rfl,
    State.queue_of_indices_eq rfl, rfl, fun p => ?_⟩⟩
  · by_cases hr : s.nextInput = .rst
    · exact .inl hr
    by_cases ht : ∃ b, s.nextInput = .micro p b
    · obtain ⟨b, hin⟩ := ht
      rw [step_of_micro hin] at hx
      exact .inr (microStep_rspValid hx (by simpa using hb) hi)
    · rw [step_port_kept hx hb hr (not_exists.1 ht)] at hi
      exact absurd hi hb
  · rw [hwReset_port]
    exact ⟨rfl, rfl⟩

/-! ## The ports a step is not for -/

/-- Settles O46: an issue replaces the registers of its own port, and a turn keeps the frame of its micro-step. -/
theorem otherPortsUntouched : Obligations.OtherPortsUntouched := by
  intro s t hx hr q hissue hmicro
  rcases step_cases hx with ⟨-, rfl⟩ | ⟨hin, -⟩ | ⟨p, m, hin, hs⟩ | ⟨p, b, hin, hs⟩
  · simp
  · exact absurd hin hr
  · have hne : q ≠ p := fun h => hissue m (h ▸ hin)
    obtain ⟨-, ⟨-, rfl⟩ | ⟨-, rfl⟩⟩ := issueStep_cases hs
    · rw [State.port_setPort_ne _ hne, State.begin_port]
    · exact State.begin_port s q
  · have hne : q ≠ p := fun h => hmicro b (h ▸ hin)
    obtain ⟨-, ⟨-, rfl⟩ | ⟨-, rfl⟩ | ⟨i, -, -, -, hi⟩⟩ := microStep_cases hs
    · exact State.begin_port s q
    · rw [State.port_complete_ne _ _ _ hne, State.turn_port, State.begin_port]
    · rw [(exec_elsewhere hi).1 q hne, State.turn_port, State.begin_port]

/-! ## Who writes what, over all steps -/

/-- Every step but the reset writes the shared registers at the labels of the port whose turn it is. -/
theorem step_sharedWriters {s t : State} (hx : step s = .next t) (hr : s.nextInput ≠ .rst) :
    SharedWriters s.nextPort s t := by
  rcases step_cases hx with ⟨-, rfl⟩ | ⟨hin, -⟩ | ⟨p, m, -, hs⟩ | ⟨p, b, hin, hs⟩
  · exact .of_sharedSame _ (begin_tickStep_sharedSame s)
  · exact absurd hin hr
  · obtain ⟨-, ⟨-, rfl⟩ | ⟨-, rfl⟩⟩ := issueStep_cases hs
    · exact .of_sharedSame _ (begin_setPort_sharedSame ..)
    · exact .of_sharedSame _ (begin_sharedSame s)
  · obtain ⟨-, ⟨-, rfl⟩ | ⟨-, rfl⟩ | ⟨i, -, -, -, hi⟩⟩ := microStep_cases hs
    · exact .of_sharedSame _ (begin_sharedSame s)
    · exact .of_sharedSame _ (begin_turn_complete_sharedSame ..)
    · have hwriters := (exec_microStep hi).sharedWriters
      simpa [SharedWriters, State.nextPort, hin] using hwriters

/-- A port the block does not have has no registers to replace. -/
theorem State.setPort_of_absent {s : State} {p : Nat} (q : Port) (h : s.ports.length ≤ p) : s.setPort p q = s := by
  simp [State.setPort, List.set_eq_of_length_le h]

/-- The issue latches operands and a label, and no Deadline. -/
theorem issueStep_dl_eq {s t : State} {p : Nat} {m : Cmd} (hx : issueStep p m s = .next t) :
    (t.port p).dl = (s.port p).dl := by
  obtain ⟨-, ⟨-, rfl⟩ | ⟨-, rfl⟩⟩ := issueStep_cases hx
  · rcases Nat.lt_or_ge p s.ports.length with hp | hp
    · rw [State.port_setPort_same _ hp]
      rfl
    · rw [State.setPort_of_absent _ hp]
  · rfl

/-- A turn changes the Deadline of its port at N1 only (10_state.md R37). -/
theorem microStep_dl_eq {s t : State} {p : Nat} {b : Bool} (hx : microStep p b s = .next t)
    (hN1 : (s.port p).phase ≠ .newN1) : (t.port p).dl = (s.port p).dl := by
  obtain ⟨-, ⟨-, rfl⟩ | ⟨hr, rfl⟩ | ⟨i, -, -, -, hx⟩⟩ := microStep_cases hx
  · rfl
  · have hlen : p < s.ports.length := State.lt_length_of_busy (by rw [hr]; decide)
    have hme := congrArg Port.dl (State.me_complete (s := s.turn p b) true false 0 hlen)
    exact hme
  · rw [← (exec_elsewhere hx).me_of_turn]
    exact (exec_microStep hx).dl_eq (active_lt_of_exec hx) hN1

/-- Every step but the reset changes the Deadline of a port at the port's own N1 only. -/
theorem step_dl_eq {s t : State} {p : Nat} (hx : step s = .next t) (hr : s.nextInput ≠ .rst)
    (hN1 : ∀ b, s.nextInput = .micro p b → (s.port p).phase ≠ .newN1) : (t.port p).dl = (s.port p).dl := by
  by_cases hissue : ∃ m, s.nextInput = .issue p m
  · obtain ⟨m, hin⟩ := hissue
    rw [step_of_issue hin] at hx
    rw [issueStep_dl_eq hx, State.begin_port]
  by_cases hmicro : ∃ b, s.nextInput = .micro p b
  · obtain ⟨b, hin⟩ := hmicro
    rw [step_of_micro hin] at hx
    rw [microStep_dl_eq hx (by simpa using hN1 b hin), State.begin_port]
  · rw [otherPortsUntouched s t hx hr p (not_exists.1 hissue) (not_exists.1 hmicro)]

/-- Settles O45: the shared registers at the labels of the coming micro-step's port, the Deadlines at N1. -/
theorem registerWriters : Obligations.RegisterWriters := by
  intro s t hx
  by_cases hr : s.nextInput = .rst
  · simp [hr, step_params hx]
  have hphase : s.nextPort.phase = s.nextPhase := by
    unfold State.nextPort State.nextPhase
    split <;> rfl
  obtain ⟨hflags, hw, hri, hslots⟩ := step_sharedWriters hx hr
  rw [hphase] at hflags hw hri hslots
  refine ⟨fun hne => .inr (hflags hne), fun hne => .inr (hw hne), fun hne => .inr (hri hne),
    fun i hne => .inr (hslots i hne), fun p hne => .inr ?_, step_params hx⟩
  by_contra hN1
  exact hne (step_dl_eq hx hr fun b hin hp => hN1 ⟨hp, b, hin⟩)

end Sys2Proof.Machine
end
